-- ==== Sys2Proof/Word.lean ====
section
/-! DEFINITION. The value types of ECC-CORE: bus words, field-register words and points. -/

namespace Sys2Proof

/-- A 32-bit word of the host port: a command, a register word, `ARGA`, `CA` (spec R6, R62). -/
abbrev Word32 := BitVec 32

/-- A `W`-bit word: a field element, a coordinate, a scalar, the prime, the order (spec R6, R21). -/
abbrev Word256 := BitVec 256

/-- The content of a point register: two unsigned `W`-bit integers (spec R23). Equality is
structural (spec R25). -/
structure Point where
  /-- the half `P[i].x` -/
  x : Word256
  /-- the half `P[i].y` -/
  y : Word256
deriving DecidableEq, Repr

/-- The baby-step table: a finite map from points to step indices, as (key, index) pairs
(spec R38, R203). -/
abbrev Table := List (Point × Nat)

end Sys2Proof
end

