-- ==== Sys2Proof/Config.lean ====
section
/-! DEFINITION. What one build of ECC-CORE fixes, and the values the spec leaves open. The opaque
constants have no body: no proof can see their value. -/

namespace Sys2Proof.Config

/-- `W`, the width of a field element, a coordinate, a scalar, the prime and the order (spec R6). -/
abbrev width : Nat := 256

/-- One less than `MEMORY_LIMIT`; its type is the range the spec gives the parameter (spec R6, U7).
DESIGN CHOICE, safe: an opaque constant (log 8). -/
opaque memoryLimitPred : Fin 4294967295

/-- `MEMORY_LIMIT`, the capacity of the baby-step table: open, `1 ≤ MEMORY_LIMIT < 2^32`
(spec R6, R41, D25). -/
def memoryLimit : Nat := memoryLimitPred.val + 1

/-- FREE VALUE: the data of a read answered `ERROR`, "not defined" (spec R62; log 5). -/
opaque errorReadData : Nat → Word32

/-- FREE VALUE: for a `STATUS` read while BUSY, which of `T`, `CVALID`, `OVALID` (bits 0, 1, 2) shows
the value after the command rather than the one before it (spec R67, U8; log 6). -/
opaque busyStatusPick : Nat → BitVec 3

/-- FREE VALUE: what the baby-step table is left holding after a DLOG or a reset (spec R38, U5; log 7). -/
opaque tableResidue : Nat → List (Point × Nat)

end Sys2Proof.Config
end

