-- ==== Sys2Proof/Syntax.lean ====
section
/-! DEFINITION. The 21 commands (spec R94), one constructor per row of the opcode table. -/

namespace Sys2Proof

/-- A field register index, `F0` .. `F15`: `NF = 16` (spec R6, R21, R92). -/
abbrev FReg := Fin 16

/-- A point register index, `P0` .. `P15`: `NP = 16` (spec R6, R23, R92). -/
abbrev PReg := Fin 16

/-- The commands of ECC-CORE. Operands stand in the order `rd`, `rs1`, `rs2`; a field a command does
not use is no argument of its constructor (spec R92, R94). No command carries an immediate (R93). -/
inductive Instr where
  /-- `FACK`: fault acknowledge (R220) -/
  | fack
  /-- `PT.ZERO Pd` (R121) -/
  | ptZero (rd : PReg)
  /-- `PT.SET Pd, Fs1, Fs2` (R122) -/
  | ptSet (rd : PReg) (rs1 rs2 : FReg)
  /-- `PT.GETX Fd, Ps1` (R123) -/
  | ptGetx (rd : FReg) (rs1 : PReg)
  /-- `PT.GETY Fd, Ps1` (R124) -/
  | ptGety (rd : FReg) (rs1 : PReg)
  /-- `PT.ISZ Ps1` (R125) -/
  | ptIsz (rs1 : PReg)
  /-- `PT.EQ Ps1, Ps2` (R126) -/
  | ptEq (rs1 rs2 : PReg)
  /-- `CRV.INIT Fs1` (R142) -/
  | crvInit (rs1 : FReg)
  /-- `CRV.SECP` (R143) -/
  | crvSecp
  /-- `CRV.GETP Fd` (R145) -/
  | crvGetp (rd : FReg)
  /-- `ORD.GET Fd` (R146) -/
  | ordGet (rd : FReg)
  /-- `ORD.SET Fs1` (R147) -/
  | ordSet (rs1 : FReg)
  /-- `HASPT Ps1` (R185) -/
  | haspt (rs1 : PReg)
  /-- `PNEG Pd, Ps1` (R186) -/
  | pneg (rd rs1 : PReg)
  /-- `PADD Pd, Ps1, Ps2` (R187) -/
  | padd (rd rs1 rs2 : PReg)
  /-- `PDBL Pd, Ps1` (R188) -/
  | pdbl (rd rs1 : PReg)
  /-- `SMUL Pd, Ps1, Fs2` (R189) -/
  | smul (rd rs1 : PReg) (rs2 : FReg)
  /-- `FMUL Fd, Fs1, Fs2` (R163) -/
  | fmul (rd rs1 rs2 : FReg)
  /-- `FINV Fd, Fs1` (R164) -/
  | finv (rd rs1 : FReg)
  /-- `FSQRT Fd, Fs1` (R165) -/
  | fsqrt (rd rs1 : FReg)
  /-- `DLOG Fd, Ps1, Ps2` (R201) -/
  | dlog (rd : FReg) (rs1 rs2 : PReg)
deriving DecidableEq, Repr

end Sys2Proof
end

