-- ==== Sys2Proof/WellFormed.lean ====
section
/-! DEFINITION. When a command word is well formed: the opcode table of spec R94 and the three checks
of R95. A term of `Instr` cannot be ill formed (its indices are bounded by their type), so the checks
are about the five fields of a word. -/

namespace Sys2Proof

/-- Which register file a used register field indexes (spec R92). -/
inductive RegFile where
  /-- the field registers `F0` .. `F15` -/
  | f
  /-- the point registers `P0` .. `P15` -/
  | p
deriving DecidableEq, Repr

/-- One row of the table of spec R94; `none` in a register column is the table's `-`. -/
structure OpRow where
  /-- the column `opcode` -/
  opcode : BitVec 8
  /-- the column `mnemonic` -/
  mnemonic : String
  /-- the column `rd` -/
  rd : Option RegFile
  /-- the column `rs1` -/
  rs1 : Option RegFile
  /-- the column `rs2` -/
  rs2 : Option RegFile
  /-- the column `match` -/
  pattern : Word32
  /-- the column `mask` -/
  mask : Word32
deriving DecidableEq, Repr

/-- The 21 rows of spec R94. -/
def opcodeTable : List OpRow := [
  ⟨0x01, "FACK",     none,    none,    none,    0x01000000, 0xFFFFFFFF⟩,
  ⟨0x10, "PT.ZERO",  some .p, none,    none,    0x10000000, 0xFF0FFFFF⟩,
  ⟨0x11, "PT.SET",   some .p, some .f, some .f, 0x11000000, 0xFF000FFF⟩,
  ⟨0x12, "PT.GETX",  some .f, some .p, none,    0x12000000, 0xFF00FFFF⟩,
  ⟨0x13, "PT.GETY",  some .f, some .p, none,    0x13000000, 0xFF00FFFF⟩,
  ⟨0x14, "PT.ISZ",   none,    some .p, none,    0x14000000, 0xFFF0FFFF⟩,
  ⟨0x15, "PT.EQ",    none,    some .p, some .p, 0x15000000, 0xFFF00FFF⟩,
  ⟨0x20, "CRV.INIT", none,    some .f, none,    0x20000000, 0xFFF0FFFF⟩,
  ⟨0x21, "CRV.SECP", none,    none,    none,    0x21000000, 0xFFFFFFFF⟩,
  ⟨0x22, "CRV.GETP", some .f, none,    none,    0x22000000, 0xFF0FFFFF⟩,
  ⟨0x23, "ORD.GET",  some .f, none,    none,    0x23000000, 0xFF0FFFFF⟩,
  ⟨0x24, "ORD.SET",  none,    some .f, none,    0x24000000, 0xFFF0FFFF⟩,
  ⟨0x28, "HASPT",    none,    some .p, none,    0x28000000, 0xFFF0FFFF⟩,
  ⟨0x29, "PNEG",     some .p, some .p, none,    0x29000000, 0xFF00FFFF⟩,
  ⟨0x2A, "PADD",     some .p, some .p, some .p, 0x2A000000, 0xFF000FFF⟩,
  ⟨0x2B, "PDBL",     some .p, some .p, none,    0x2B000000, 0xFF00FFFF⟩,
  ⟨0x2C, "SMUL",     some .p, some .p, some .f, 0x2C000000, 0xFF000FFF⟩,
  ⟨0x30, "FMUL",     some .f, some .f, some .f, 0x30000000, 0xFF000FFF⟩,
  ⟨0x31, "FINV",     some .f, some .f, none,    0x31000000, 0xFF00FFFF⟩,
  ⟨0x32, "FSQRT",    some .f, some .f, none,    0x32000000, 0xFF00FFFF⟩,
  ⟨0x40, "DLOG",     some .f, some .p, some .p, 0x40000000, 0xFF000FFF⟩]

/-- The five fields of a command word (spec R91). -/
structure CmdFields where
  /-- bits 31:24 -/
  opcode : BitVec 8
  /-- bits 23:20 -/
  rd : Fin 16
  /-- bits 19:16 -/
  rs1 : Fin 16
  /-- bits 15:12 -/
  rs2 : Fin 16
  /-- bits 11:0 -/
  zero : BitVec 12
deriving DecidableEq, Repr

/-- The row of a field set's opcode, if the opcode is one of the 21 (spec R94). -/
def CmdFields.row (f : CmdFields) : Option OpRow :=
  opcodeTable.find? (fun r => r.opcode == f.opcode)

/-- First check of spec R95: the opcode is one of the 21 values. -/
def CmdFields.opcodeKnown (f : CmdFields) : Bool := f.row.isSome

/-- Second check of spec R95: `w[11:0]` is 0. -/
def CmdFields.zeroClear (f : CmdFields) : Bool := f.zero == 0

/-- Third check of spec R95: every register field the command does not use is 0. -/
def CmdFields.unusedClear (f : CmdFields) : Bool :=
  match f.row with
  | none => true
  | some r =>
    (r.rd.isSome || f.rd == 0) && (r.rs1.isSome || f.rs1 == 0) && (r.rs2.isSome || f.rs2 == 0)

/-- The word is one of the 21 commands (spec R95). -/
def CmdFields.wellFormed (f : CmdFields) : Bool :=
  f.opcodeKnown && f.zeroClear && f.unusedClear

end Sys2Proof
end

