-- ==== Sys2Proof/Decode.lean ====
section
/-! DEFINITION. Decoding of command words, total on all words and rejecting by name, and the encoder
(spec R90 to R96). -/

namespace Sys2Proof

/-- Why a word is illegal (spec R95). The hardware has one fault for all three; the names are the
model's (DESIGN CHOICE, safe: log 11). -/
inductive DecodeError where
  /-- the opcode is not one of the 21 values -/
  | unknownOpcode
  /-- `w[11:0]` is not 0 -/
  | zeroFieldSet
  /-- a register field the command does not use is not 0 -/
  | unusedFieldSet
deriving DecidableEq, Repr

/-- The four bits of `w` from bit `lo` up, as a register index (spec R91). -/
def nibbleAt (w : Word32) (lo : Nat) : Fin 16 :=
  ⟨w.toNat / 2 ^ lo % 16, Nat.mod_lt _ (by decide)⟩

/-- The fields of a word (spec R91). -/
def CmdFields.ofWord (w : Word32) : CmdFields where
  opcode := BitVec.ofNat 8 (w.toNat / 2 ^ 24)
  rd := nibbleAt w 20
  rs1 := nibbleAt w 16
  rs2 := nibbleAt w 12
  zero := BitVec.ofNat 12 w.toNat

/-- `i`, provided the field `zero` and the listed unused register fields are 0 (spec R95). -/
def CmdFields.accept (f : CmdFields) (unused : List (Fin 16)) (i : Instr) :
    Except DecodeError Instr :=
  if f.zero ≠ 0 then .error .zeroFieldSet
  else if unused.any (· ≠ 0) then .error .unusedFieldSet
  else .ok i

/-- Decoding of a field set: one line per row of spec R94, with the register fields the row leaves
unused. -/
def decodeFields (f : CmdFields) : Except DecodeError Instr :=
  match f.opcode.toNat with
  | 0x01 => f.accept [f.rd, f.rs1, f.rs2] .fack
  | 0x10 => f.accept [f.rs1, f.rs2] (.ptZero f.rd)
  | 0x11 => f.accept [] (.ptSet f.rd f.rs1 f.rs2)
  | 0x12 => f.accept [f.rs2] (.ptGetx f.rd f.rs1)
  | 0x13 => f.accept [f.rs2] (.ptGety f.rd f.rs1)
  | 0x14 => f.accept [f.rd, f.rs2] (.ptIsz f.rs1)
  | 0x15 => f.accept [f.rd] (.ptEq f.rs1 f.rs2)
  | 0x20 => f.accept [f.rd, f.rs2] (.crvInit f.rs1)
  | 0x21 => f.accept [f.rd, f.rs1, f.rs2] .crvSecp
  | 0x22 => f.accept [f.rs1, f.rs2] (.crvGetp f.rd)
  | 0x23 => f.accept [f.rs1, f.rs2] (.ordGet f.rd)
  | 0x24 => f.accept [f.rd, f.rs2] (.ordSet f.rs1)
  | 0x28 => f.accept [f.rd, f.rs2] (.haspt f.rs1)
  | 0x29 => f.accept [f.rs2] (.pneg f.rd f.rs1)
  | 0x2A => f.accept [] (.padd f.rd f.rs1 f.rs2)
  | 0x2B => f.accept [f.rs2] (.pdbl f.rd f.rs1)
  | 0x2C => f.accept [] (.smul f.rd f.rs1 f.rs2)
  | 0x30 => f.accept [] (.fmul f.rd f.rs1 f.rs2)
  | 0x31 => f.accept [f.rs2] (.finv f.rd f.rs1)
  | 0x32 => f.accept [f.rs2] (.fsqrt f.rd f.rs1)
  | 0x40 => f.accept [] (.dlog f.rd f.rs1 f.rs2)
  | _ => .error .unknownOpcode

/-- Decoding is total on all `2^32` words (spec R95). -/
def decode (w : Word32) : Except DecodeError Instr := decodeFields (CmdFields.ofWord w)

/-- Assembly of a word from its fields, the formula of spec R91. -/
def assemble (opcode : Nat) (rd rs1 rs2 : Fin 16) : Word32 :=
  BitVec.ofNat 32 (opcode * 2 ^ 24 + rd.val * 2 ^ 20 + rs1.val * 2 ^ 16 + rs2.val * 2 ^ 12)

/-- The command word of a command (spec R91, R94, R97). -/
def encode (i : Instr) : Word32 :=
  match i with
  | .fack => assemble 0x01 0 0 0
  | .ptZero rd => assemble 0x10 rd 0 0
  | .ptSet rd rs1 rs2 => assemble 0x11 rd rs1 rs2
  | .ptGetx rd rs1 => assemble 0x12 rd rs1 0
  | .ptGety rd rs1 => assemble 0x13 rd rs1 0
  | .ptIsz rs1 => assemble 0x14 0 rs1 0
  | .ptEq rs1 rs2 => assemble 0x15 0 rs1 rs2
  | .crvInit rs1 => assemble 0x20 0 rs1 0
  | .crvSecp => assemble 0x21 0 0 0
  | .crvGetp rd => assemble 0x22 rd 0 0
  | .ordGet rd => assemble 0x23 rd 0 0
  | .ordSet rs1 => assemble 0x24 0 rs1 0
  | .haspt rs1 => assemble 0x28 0 rs1 0
  | .pneg rd rs1 => assemble 0x29 rd rs1 0
  | .padd rd rs1 rs2 => assemble 0x2A rd rs1 rs2
  | .pdbl rd rs1 => assemble 0x2B rd rs1 0
  | .smul rd rs1 rs2 => assemble 0x2C rd rs1 rs2
  | .fmul rd rs1 rs2 => assemble 0x30 rd rs1 rs2
  | .finv rd rs1 => assemble 0x31 rd rs1 0
  | .fsqrt rd rs1 => assemble 0x32 rd rs1 0
  | .dlog rd rs1 rs2 => assemble 0x40 rd rs1 rs2

/-- A command is well formed when the fields of its word pass the three checks of spec R95. -/
def Instr.wellFormed (i : Instr) : Bool := (CmdFields.ofWord (encode i)).wellFormed

/-- What the decoder reads from an instruction whose bits are `w`, numbered as the opcode table
numbers them. Every command is one 32-bit word, the data of one `CMD` write (spec R90): there is no
second word, and bits above the `nbits` given, or above bit 31, make no command. -/
def decodeTableWord (nbits w : Nat) : Option Instr :=
  if nbits ≤ 32 ∧ w < 2 ^ nbits then (decode (BitVec.ofNat 32 w)).toOption else none

end Sys2Proof
end

