-- ==== Sys2Proof/Machine/State.lean ====
section
/-! DEFINITION. The state of one ECC-CORE instance (spec R20), the host's side of the port as data,
and reset (spec R40, R270). -/

namespace Sys2Proof.Machine

/-- The fault conditions of spec R230. Raising one is a next state of the machine (spec R233), not an
end of the run. -/
inductive FaultCode where
  /-- E_CURVE_PARAMS, code 1 (R234) -/
  | curveParams
  /-- E_INVALID_INPUT, code 2 (R235) -/
  | invalidInput
  /-- E_NOT_INVERTIBLE, code 3 (R236) -/
  | notInvertible
  /-- E_UNSUPPORTED_MODULUS, code 4 (R237) -/
  | unsupportedModulus
  /-- E_SEARCH_EXHAUSTED, code 5 (R238) -/
  | searchExhausted
  /-- E_ILLEGAL_CMD, code 6 (R232) -/
  | illegalCmd
  /-- E_NO_CURVE, code 7 (R231) -/
  | noCurve
  /-- E_RANGE, code 8 (R239) -/
  | range
deriving DecidableEq, Repr

/-- The engine's mode (spec R37). The bits `BUSY` and `FAULT` are views of it. -/
inductive Mode where
  /-- commands are accepted -/
  | idle
  /-- the command word `word`, taken at the accepted `CMD` write (spec R66, R75), is executing -/
  | busy (word : Word32)
  /-- a command has faulted and the host has not acknowledged it -/
  | faulted
deriving DecidableEq, Repr

/-- What happens next at the port (spec R7, R62, R63, R271). Widths are in bytes: only 4 is ever
accepted (spec R70). -/
inductive Input where
  /-- a host read -/
  | read (addr width : Nat)
  /-- a host write; a write of another width than 4 is refused whole, so its data is immaterial -/
  | write (addr width : Nat) (data : Word32)
  /-- reset is asserted, in any mode -/
  | reset
  /-- the engine ends the command in flight; nothing happens when no command is in flight -/
  | engine
deriving DecidableEq, Repr

/-- The response of the port (spec R62, R63). -/
inductive Response where
  /-- the transaction was accepted -/
  | ok
  /-- the transaction was refused (spec R64) -/
  | error
deriving DecidableEq, Repr

/-- What the latest host transaction returned: a read returns a response and data, a write a
response. -/
inductive Reply where
  /-- no transaction since reset -/
  | none
  /-- a read returned this (spec R62) -/
  | read (response : Response) (data : Word32)
  /-- a write returned this (spec R63) -/
  | write (response : Response)
deriving DecidableEq, Repr

/-- The whole state. The last three fields are the model's own, not the spec's. -/
structure State where
  /-- `F[0..15]` (R21) -/
  fregs : Vector Word256 16
  /-- `P[0..15]` (R23) -/
  pregs : Vector Point 16
  /-- `T` (R28) -/
  t : Bool
  /-- `DONE` (R39) -/
  done : Bool
  /-- the mode, with `BUSY` and `FAULT` (R37), and the command in flight (R66) -/
  mode : Mode
  /-- `ERR` (R33) -/
  err : BitVec 8
  /-- `FAULTCMD` (R34) -/
  faultcmd : Word32
  /-- `ARGA` (R32) -/
  arga : Word32
  /-- `ARGB` (R32) -/
  argb : Word32
  /-- `CA` (R30) -/
  ca : Word32
  /-- `CB` (R30) -/
  cb : Word32
  /-- `CP` (R30) -/
  cp : Word256
  /-- `CVALID` (R30) -/
  cvalid : Bool
  /-- `CN` (R31) -/
  cn : Word256
  /-- `OVALID` (R31) -/
  ovalid : Bool
  /-- the baby-step table (R38) -/
  table : Table
  /-- model: what happens next at the port, in issue order (R73; log 1) -/
  inputs : List Input
  /-- model: what the latest host transaction returned (log 4) -/
  reply : Reply
  /-- model: index of the next free value (log 5) -/
  freeCount : Nat
deriving DecidableEq, Repr

/-- The machine right after reset (spec R40, R270). The table, which R40 leaves unspecified, is empty
here: DESIGN CHOICE, unsafe (log 7). The model's own fields are empty, none and 0: DESIGN CHOICE
(log 1, 4, 5). -/
def State.reset : State where
  fregs := Vector.replicate 16 0
  pregs := Vector.replicate 16 ⟨0, 0⟩
  t := false
  done := false
  mode := .idle
  err := 0
  faultcmd := 0
  arga := 0
  argb := 0
  ca := 0
  cb := 0
  cp := 0
  cvalid := false
  cn := 0
  ovalid := false
  table := []
  inputs := []
  reply := .none
  freeCount := 0

/-- Why a step could stop the machine: there is no such reason. Every fault of ECC-CORE is a next
state (spec R233), every command terminates (R277), and "Nothing in ECC-CORE has the treatment
unpredictable" (93_implementation_defined.md), so the type has no constructor. Safe (log 13). -/
inductive Fault where
deriving DecidableEq, Repr

/-- Why an instruction has no meaning in this model. -/
inductive Refusal where
  /-- Raised by an arm of `exec` whose instruction has no meaning yet; no arm raises it in this model.
  Safe: the run stops there. -/
  | notModelled (mnemonic : String)
deriving DecidableEq, Repr

end Sys2Proof.Machine
end

