-- ==== Sys2Proof/Machine/Flags.lean ====
section
/-! DEFINITION. The test flag, the mode bits and the assembly of `STATUS` (spec R28, R29, R37). -/

namespace Sys2Proof.Machine

/-- `T <- b` (spec R28). -/
def State.setT (s : State) (b : Bool) : State := { s with t := b }

/-- The bit `BUSY` (spec R37). -/
def State.busyBit (s : State) : Bool :=
  match s.mode with
  | .busy _ => true
  | .idle => false
  | .faulted => false

/-- The bit `FAULT` (spec R37). -/
def State.faultBit (s : State) : Bool :=
  match s.mode with
  | .faulted => true
  | .idle => false
  | .busy _ => false

/-- `STATUS` from its six bits; bits 31:6 read as zero (spec R29). -/
def assembleStatus (busy done fault t cvalid ovalid : Bool) : Word32 :=
  BitVec.ofNat 32 (busy.toNat + 2 * done.toNat + 4 * fault.toNat + 8 * t.toNat + 16 * cvalid.toNat
    + 32 * ovalid.toNat)

/-- `STATUS` outside BUSY (spec R29). -/
def State.statusWord (s : State) : Word32 :=
  assembleStatus s.busyBit s.done s.faultBit s.t s.cvalid s.ovalid

/-- `STATUS` while BUSY: `BUSY = 1`, `DONE = 0`, `FAULT = 0`, and `T`, `CVALID`, `OVALID` each from
the state before the command or from the one after it, as `pick` says (spec R67). -/
def statusWhileBusy (pick : BitVec 3) (before after : State) : Word32 :=
  assembleStatus true false false
    (if pick[0] then after.t else before.t)
    (if pick[1] then after.cvalid else before.cvalid)
    (if pick[2] then after.ovalid else before.ovalid)

end Sys2Proof.Machine
end

