-- ==== Sys2Proof/Machine/Operands.lean ====
section
/-! DEFINITION. Operand forms: register reads and writes, the 32-bit words of a wide register, and the
sign extension of the coefficients. -/

namespace Sys2Proof.Machine

/-- `F[i]` (spec R11, R22). -/
def State.readF (s : State) (i : FReg) : Word256 := s.fregs[i]

/-- `F[i] <- v` (spec R11, R22). -/
def State.writeF (s : State) (i : FReg) (v : Word256) : State :=
  { s with fregs := s.fregs.set i v }

/-- `P[i]` (spec R11, R23). -/
def State.readP (s : State) (i : PReg) : Point := s.pregs[i]

/-- `P[i] <- Q`, both halves together (spec R11, R23). -/
def State.writeP (s : State) (i : PReg) (Q : Point) : State :=
  { s with pregs := s.pregs.set i Q }

/-- A result `v`, an integer the rules keep in `[0, 2^W)`, as the content of a register
(spec R11, R166). -/
def toReg (v : Nat) : Word256 := BitVec.ofNat 256 v

/-- The point with the coordinates `x`, `y`, integers the rules keep in `[0, 2^W)` (spec R11, R166). -/
def mkPoint (x y : Nat) : Point := ⟨toReg x, toReg y⟩

/-- `sext_32(v)`: the signed integer whose 32-bit two's complement encoding is `v` (spec R11). -/
def sext32 (v : Word32) : Int :=
  if v.toNat < 2 ^ 31 then (v.toNat : Int) else (v.toNat : Int) - 2 ^ 32

/-- Word `k` of a wide register: its bits `32k+31 : 32k` (spec R61, R69). -/
def wordAt (v : Word256) (k : Fin 8) : Word32 := v.extractLsb' (32 * k.val) 32

/-- `v` with its bits `32k+31 : 32k` replaced by `d` (spec R63, R69). -/
def setWordAt (v : Word256) (k : Fin 8) (d : Word32) : Word256 :=
  (v &&& ~~~(0xFFFFFFFF#256 <<< (32 * k.val))) ||| (d.setWidth 256 <<< (32 * k.val))

end Sys2Proof.Machine
end

