-- ==== Sys2Proof/Machine/Field.lean ====
section
/-! DEFINITION. Exact modular arithmetic: residues, powers, inverse, square root (spec R10, R160 to
R162) and the integer square root of the solver (R202). -/

namespace Sys2Proof.Machine

/-- `z mod p`, the non-negative residue (spec R10). -/
def residue (z : Int) (p : Nat) : Nat := (z % (p : Int)).toNat

/-- The binary expansion of `k`, least significant bit first, without leading zeros; at most `fuel`
digits. -/
def binaryDigitsUpTo (fuel k : Nat) : List Bool :=
  match fuel with
  | 0 => []
  | fuel + 1 => if k = 0 then [] else (k % 2 == 1) :: binaryDigitsUpTo fuel (k / 2)

/-- The binary expansion of `k`, least significant bit first: `bitlength(k)` digits (spec R184). -/
def binaryDigits (k : Nat) : List Bool := binaryDigitsUpTo (k.log2 + 1) k

/-- `acc` times the power of `z` whose exponent has the given digits, modulo `p`. -/
def powerLoop (p : Nat) (digits : List Bool) (z acc : Nat) : Nat :=
  match digits with
  | [] => acc
  | d :: rest => powerLoop p rest (z * z % p) (if d then acc * z % p else acc)

/-- `modexp(z, e, p) = (z^e) mod p` (spec R160). Only the value is architectural; it is computed by
repeated squaring so that it can be evaluated at 256 bits. -/
def modexp (z : Int) (e p : Nat) : Nat := powerLoop p (binaryDigits e) (residue z p) (1 % p)

/-- `(x * y) mod p` on the exact product (spec R163). -/
def modProduct (x y p : Nat) : Nat := x * y % p

/-- `inverse(z)` modulo `p`: Fermat's exponent, after the test on the reduced operand (spec R161). -/
def inverse (p : Nat) (z : Int) : Except FaultCode Nat :=
  if residue z p = 0 then .error .notInvertible else .ok (modexp z (p - 2) p)

/-- `squareRoot(z)` modulo `p`: the fixed exponent `(p + 1) / 4`, for `p mod 4 = 3` only
(spec R162). -/
def squareRoot (p : Nat) (z : Nat) : Except FaultCode Nat :=
  if p % 4 ≠ 3 then .error .unsupportedModulus else .ok (modexp z ((p + 1) / 4) p)

/-- The greatest `r` with `r * r ≤ n` that is `root` plus a number below `2^bits`, if `root * root ≤ n`. -/
def sqrtLoop (n bits root : Nat) : Nat :=
  match bits with
  | 0 => root
  | b + 1 =>
    sqrtLoop n b (if (root + 2 ^ b) * (root + 2 ^ b) ≤ n then root + 2 ^ b else root)

/-- The integer square root, rounded down. -/
def floorSqrt (n : Nat) : Nat := sqrtLoop n (n.log2 / 2 + 1) 0

/-- `ceil_sqrt(n)`: the least `m` with `m * m ≥ n` (spec R202). -/
def ceilSqrt (n : Nat) : Nat :=
  if floorSqrt n * floorSqrt n = n then floorSqrt n else floorSqrt n + 1

end Sys2Proof.Machine
end

