-- ==== Sys2Proof/Machine/Group.lean ====
section
/-! DEFINITION. The five functions of the group law (spec R180 to R184) and `isZero` (R120). -/

namespace Sys2Proof.Machine

/-- A curve `y^2 = x^3 + a x + b (mod p)` (spec R13, R30). -/
structure Curve where
  /-- the coefficient `a`, signed -/
  a : Int
  /-- the coefficient `b`, signed -/
  b : Int
  /-- the prime -/
  p : Nat
deriving DecidableEq, Repr

/-- The identity, the sentinel `(0, 0)` (spec R24). -/
def identityPoint : Point := ⟨0, 0⟩

/-- `isZero(Q)`: both stored integers are 0 (spec R120). -/
def isZero (Q : Point) : Bool := Q.x == 0 && Q.y == 0

/-- Structural equality (spec R25, R126). -/
def samePoint (Q1 Q2 : Point) : Bool := Q1.x == Q2.x && Q1.y == Q2.y

/-- The stored `x` as an exact integer (spec R9). -/
def intX (Q : Point) : Int := (Q.x.toNat : Int)

/-- The stored `y` as an exact integer (spec R9). -/
def intY (Q : Point) : Int := (Q.y.toNat : Int)

/-- The curve equation at the integers `x`, `y`, modulo `p` (spec R140, R180). -/
def onCurve (c : Curve) (x y : Int) : Bool :=
  residue (y * y - (x * x * x + c.a * x + c.b)) c.p == 0

/-- `hasPoint(Q)` (spec R180). -/
def hasPoint (c : Curve) (Q : Point) : Bool :=
  if isZero Q then true else onCurve c (intX Q) (intY Q)

/-- `negatePoint(Q)`: `x` copied unreduced, `y` canonical (spec R181). -/
def negatePoint (c : Curve) (Q : Point) : Point := ⟨Q.x, toReg (residue (-intY Q) c.p)⟩

/-- `double(Q)` (spec R183); `x3` in the third line is the reduced value. -/
def double (c : Curve) (Q : Point) : Except FaultCode Point :=
  if isZero Q then .ok identityPoint
  else do
    let inv ← inverse c.p (2 * intY Q)
    let lam := residue ((3 * intX Q * intX Q + c.a) * inv) c.p
    let x3 := residue (lam * lam - 2 * intX Q) c.p
    let y3 := residue (lam * (intX Q - x3) - intY Q) c.p
    .ok (mkPoint x3 y3)

/-- `add(Q1, Q2)`: the five cases of spec R182, the first that applies is taken. -/
def add (c : Curve) (Q1 Q2 : Point) : Except FaultCode Point :=
  if isZero Q2 then .ok Q1
  else if isZero Q1 then .ok Q2
  else if Q1.x = Q2.x ∧ Q1.y = Q2.y then double c Q1
  else if Q1.x = Q2.x then .ok identityPoint
  else do
    let inv ← inverse c.p (intX Q1 - intX Q2)
    let lam := residue ((intY Q1 - intY Q2) * inv) c.p
    let x3 := residue (lam * lam - intX Q1 - intX Q2) c.p
    let y3 := residue (lam * (intX Q1 - x3) - intY Q1) c.p
    .ok (mkPoint x3 y3)

/-- The loop of spec R184 over the digits of the scalar, least significant first: `acc <- add(acc,
power)` where the digit is set, then the power is doubled regardless. -/
def scalarLoop (c : Curve) (digits : List Bool) (acc power : Point) : Except FaultCode Point :=
  match digits with
  | [] => .ok acc
  | d :: rest => do
    let acc' ← if d then add c acc power else .ok acc
    let power' ← double c power
    scalarLoop c rest acc' power'

/-- `scalarMultiply(Q, n)` (spec R184). -/
def scalarMultiply (c : Curve) (Q : Point) (n : Nat) : Except FaultCode Point :=
  if n = 0 then .error .invalidInput
  else scalarLoop c (binaryDigits n) identityPoint Q

end Sys2Proof.Machine
end

