-- ==== Sys2Proof/Machine/Order.lean ====
section
/-! DEFINITION. Curve construction's test, the secp256k1 constants and the group order (spec R140 to
R144). -/

namespace Sys2Proof.Machine

/-- `4a^3 + 27b^2` over the integers (spec R142, D12). -/
def discriminant (a b : Int) : Int := 4 * a * a * a + 27 * b * b

/-- `SECP_P` (spec R144). PRESUMED, as the spec itself marks the digits (log 12). -/
def secpP : Word256 := 0xFFFFFFFFFFFFFFFFFFFFFFFFFFFFFFFFFFFFFFFFFFFFFFFFFFFFFFFEFFFFFC2F

/-- `SECP_N` (spec R144). PRESUMED, as the spec itself marks the digits (log 12). -/
def secpN : Word256 := 0xFFFFFFFFFFFFFFFFFFFFFFFFFFFFFFFEBAAEDCE6AF48A03BBFD25E8CD0364141

/-- How many `y` in `[0, ys)` satisfy the curve equation at `x`. -/
def countColumn (c : Curve) (x ys : Nat) : Nat :=
  match ys with
  | 0 => 0
  | y + 1 => countColumn c x y + (onCurve c x y).toNat

/-- How many pairs in `[0, xs) × [0, p)` satisfy the curve equation. -/
def countPairs (c : Curve) (xs : Nat) : Nat :=
  match xs with
  | 0 => 0
  | x + 1 => countPairs c x + countColumn c x c.p

/-- `countOrder()`: the identity and every affine solution in `[0, p)^2`; E_RANGE when the count does
not fit a register (spec R140). -/
def countOrder (c : Curve) : Except FaultCode Nat :=
  if 1 + countPairs c c.p ≥ 2 ^ Config.width then .error .range else .ok (1 + countPairs c c.p)

/-- `order()`: the supplied order if there is one, else the count; nothing is cached (spec R141). -/
def groupOrder (c : Curve) (supplied : Option Nat) : Except FaultCode Nat :=
  match supplied with
  | some n => .ok n
  | none => countOrder c

end Sys2Proof.Machine
end

