-- ==== Sys2Proof/Machine/Solver.lean ====
section
/-! DEFINITION. The baby-step giant-step solver (spec R200, R202, R203). -/

namespace Sys2Proof.Machine

/-- `clear()` (spec R203). -/
def tableClear (_ : Table) : Table := []

/-- `lookup(K)` (spec R203). -/
def tableLookup (tab : Table) (K : Point) : Option Nat := tab.lookup K

/-- `insert(K, j)`: nothing changes when `K` is already a key, so the first index is kept
(spec R203). -/
def tableInsert (tab : Table) (K : Point) (j : Nat) : Table :=
  match tableLookup tab K with
  | some _ => tab
  | none => (K, j) :: tab

/-- Baby steps `j`, `j + 1`, ..., `count` of them (spec R200 step 2). -/
def babySteps (c : Curve) (G : Point) (count j : Nat) (tab : Table) : Except FaultCode Table :=
  match count with
  | 0 => .ok tab
  | count + 1 => do
    let K ← scalarMultiply c G j
    babySteps c G count (j + 1) (tableInsert tab K j)

/-- The probe of giant step `i`: `add(Pt, negatePoint(scalarMultiply(mG, i)))` (spec R200 step 3). -/
def giantProbe (c : Curve) (Pt mG : Point) (i : Nat) : Except FaultCode Point := do
  let R ← scalarMultiply c mG i
  add c Pt (negatePoint c R)

/-- Giant steps `i`, `i + 1`, ..., `count` of them; the first hit ends the search (spec R200 step 3). -/
def giantSteps (c : Curve) (Pt mG : Point) (m n : Nat) (tab : Table) (count i : Nat) :
    Except FaultCode Nat :=
  match count with
  | 0 => .error .searchExhausted
  | count + 1 => do
    let Q ← giantProbe c Pt mG i
    match tableLookup tab Q with
    | some j => .ok ((i * m + j) % n)
    | none => giantSteps c Pt mG m n tab count (i + 1)

/-- `discreteLogarithm(G, Pt)` with `limit` for `MEMORY_LIMIT` and `tab` the table as the command
finds it (spec R200). -/
def discreteLogarithm (c : Curve) (supplied : Option Nat) (limit : Nat) (tab : Table) (G Pt : Point) :
    Except FaultCode Nat :=
  if ¬ hasPoint c G then .error .invalidInput
  else if ¬ hasPoint c Pt then .error .invalidInput
  else do
    let n ← groupOrder c supplied
    let m := ceilSqrt n
    let baby ← babySteps c G (min m limit) 1 (tableClear tab)
    let mG ← scalarMultiply c G m
    giantSteps c Pt mG m n baby m 1

/-- A table with the bounds the spec keeps (distinct keys, positive indices, at most `limit` keys:
R38) and otherwise free content. -/
def boundedTable (limit : Nat) (raw : List (Point × Nat)) : Table :=
  (raw.take limit).foldl (fun tab e => tableInsert tab e.1 (e.2 + 1)) []

end Sys2Proof.Machine
end

