-- ==== Sys2Proof/Machine/Ops.lean ====
section
/-! DEFINITION. The shared operations of the commands: completion, fault entry and fault exit
(spec R39, R233, R242), the curve test (R231), the curve and order registers (R30, R31). -/

namespace Sys2Proof.Machine

/-- The number `ERR` holds for a fault (spec R230). -/
def FaultCode.number (e : FaultCode) : BitVec 8 :=
  match e with
  | .curveParams => 1
  | .invalidInput => 2
  | .notInvertible => 3
  | .unsupportedModulus => 4
  | .searchExhausted => 5
  | .illegalCmd => 6
  | .noCurve => 7
  | .range => 8

/-- The command completes: `DONE <- 1`, mode IDLE (spec R37, R39, R66). -/
def State.complete (s : State) : State := { s with done := true, mode := .idle }

/-- FAULT ENTRY, the one operation every fault goes through: `FAULT <- 1; ERR <- c; FAULTCMD <- w;
DONE <- 0; BUSY <- 0`, and nothing else (spec R233). -/
def State.raise (s : State) (e : FaultCode) (w : Word32) : State :=
  { s with mode := .faulted, err := e.number, faultcmd := w, done := false }

/-- FAULT EXIT: `FAULT <- 0; ERR <- 0; FAULTCMD <- 0` (spec R220, R242). -/
def State.acknowledge (s : State) : State :=
  { s with mode := .idle, err := 0, faultcmd := 0 }

/-- How a command ends: with its results written and `DONE = 1`, or in a fault raised on the state
`s`, in which none of its results is written (spec R66, R233). `w` is the command's word. -/
def State.finish (s : State) (w : Word32) (r : Except FaultCode State) :
    Host.Outcome State Fault Refusal :=
  match r with
  | .ok s' => .next s'.complete
  | .error e => .next (s.raise e w)

/-- The current curve: `a = sext_32(CA)`, `b = sext_32(CB)`, `p = CP` (spec R30). -/
def State.curve (s : State) : Curve where
  a := sext32 s.ca
  b := sext32 s.cb
  p := s.cp.toNat

/-- The test of every command that needs a curve: E_NO_CURVE while `CVALID = 0` (spec R231). -/
def State.needCurve (s : State) : Except FaultCode Curve :=
  if s.cvalid then .ok s.curve else .error .noCurve

/-- The known group order, if one has been supplied (spec R31, R141). -/
def State.suppliedOrder (s : State) : Option Nat :=
  if s.ovalid then some s.cn.toNat else none

/-- `CA <- a; CB <- b; CP <- p; CVALID <- 1`, all together (spec R30, R142, R143). -/
def State.setCurve (s : State) (a b : Word32) (p : Word256) : State :=
  { s with ca := a, cb := b, cp := p, cvalid := true }

/-- `CN <- n; OVALID <- v` (spec R31). -/
def State.setOrder (s : State) (n : Word256) (v : Bool) : State :=
  { s with cn := n, ovalid := v }

/-- The table as it stands outside a DLOG: FREE, within its bounds (spec R38, U5; log 7). -/
def State.forgetTable (s : State) : State :=
  { s with
    table := boundedTable Config.memoryLimit (Config.tableResidue s.freeCount)
    freeCount := s.freeCount + 1 }

end Sys2Proof.Machine
end

