-- ==== Sys2Proof/Machine/Control.lean ====
section
/-! DEFINITION. The control command (spec 45_control.md). -/

namespace Sys2Proof.Machine

/-- FACK (spec R220). -/
def execFack (s : State) : Host.Outcome State Fault Refusal :=
  s.finish (encode .fack) (.ok s.acknowledge)

end Sys2Proof.Machine
end

