-- ==== Sys2Proof/Machine/CurveCommands.lean ====
section
/-! DEFINITION. Curve construction and order (spec 41_curve_params.md). -/

namespace Sys2Proof.Machine

/-- The construction of spec R142 on a prime `pp`: the prime test, the discriminant test over the
integers, then all curve registers together and the order cleared. -/
def State.constructCurve (s : State) (pp : Word256) : Except FaultCode State :=
  if pp = 0 then .error .curveParams
  else if discriminant (sext32 s.arga) (sext32 s.argb) = 0 then .error .curveParams
  else .ok ((s.setCurve s.arga s.argb pp).setOrder 0 false)

/-- CRV.INIT Fs1 (spec R142). -/
def execCrvInit (rs1 : FReg) (s : State) : Host.Outcome State Fault Refusal :=
  s.finish (encode (.crvInit rs1)) (s.constructCurve (s.readF rs1))

/-- CRV.SECP: secp256k1 with its order (spec R143, R144). -/
def execCrvSecp (s : State) : Host.Outcome State Fault Refusal :=
  s.finish (encode .crvSecp) (.ok ((s.setCurve 0 7 secpP).setOrder secpN true))

/-- CRV.GETP Fd: `F[rd] <- CP` (spec R145). -/
def execCrvGetp (rd : FReg) (s : State) : Host.Outcome State Fault Refusal :=
  s.finish (encode (.crvGetp rd)) (do
    let _ ← s.needCurve
    .ok (s.writeF rd s.cp))

/-- ORD.GET Fd: `F[rd] <- order()` (spec R146). -/
def execOrdGet (rd : FReg) (s : State) : Host.Outcome State Fault Refusal :=
  s.finish (encode (.ordGet rd)) (do
    let c ← s.needCurve
    let n ← groupOrder c s.suppliedOrder
    .ok (s.writeF rd (toReg n)))

/-- ORD.SET Fs1: `CN <- F[rs1]; OVALID <- 1`, unchecked (spec R147). -/
def execOrdSet (rs1 : FReg) (s : State) : Host.Outcome State Fault Refusal :=
  s.finish (encode (.ordSet rs1)) (do
    let _ ← s.needCurve
    .ok (s.setOrder (s.readF rs1) true))

end Sys2Proof.Machine
end

