-- ==== Sys2Proof/Machine/FieldCommands.lean ====
section
/-! DEFINITION. The modular helper commands (spec 42_field.md). -/

namespace Sys2Proof.Machine

/-- FMUL Fd, Fs1, Fs2: `F[rd] <- (F[rs1] * F[rs2]) mod p` (spec R163). -/
def execFmul (rd rs1 rs2 : FReg) (s : State) : Host.Outcome State Fault Refusal :=
  s.finish (encode (.fmul rd rs1 rs2)) (do
    let c ← s.needCurve
    .ok (s.writeF rd (toReg (modProduct (s.readF rs1).toNat (s.readF rs2).toNat c.p))))

/-- FINV Fd, Fs1: `F[rd] <- inverse(F[rs1])` (spec R164). -/
def execFinv (rd rs1 : FReg) (s : State) : Host.Outcome State Fault Refusal :=
  s.finish (encode (.finv rd rs1)) (do
    let c ← s.needCurve
    let r ← inverse c.p ((s.readF rs1).toNat : Int)
    .ok (s.writeF rd (toReg r)))

/-- FSQRT Fd, Fs1: `F[rd] <- squareRoot(F[rs1])` (spec R165). -/
def execFsqrt (rd rs1 : FReg) (s : State) : Host.Outcome State Fault Refusal :=
  s.finish (encode (.fsqrt rd rs1)) (do
    let c ← s.needCurve
    let r ← squareRoot c.p (s.readF rs1).toNat
    .ok (s.writeF rd (toReg r)))

end Sys2Proof.Machine
end

