-- ==== Sys2Proof/Machine/GroupCommands.lean ====
section
/-! DEFINITION. The group-law commands (spec 43_group_law.md). -/

namespace Sys2Proof.Machine

/-- HASPT Ps1: `T <- hasPoint(P[rs1])` (spec R185). -/
def execHaspt (rs1 : PReg) (s : State) : Host.Outcome State Fault Refusal :=
  s.finish (encode (.haspt rs1)) (do
    let c ← s.needCurve
    .ok (s.setT (hasPoint c (s.readP rs1))))

/-- PNEG Pd, Ps1: `P[rd] <- negatePoint(P[rs1])` (spec R186). -/
def execPneg (rd rs1 : PReg) (s : State) : Host.Outcome State Fault Refusal :=
  s.finish (encode (.pneg rd rs1)) (do
    let c ← s.needCurve
    .ok (s.writeP rd (negatePoint c (s.readP rs1))))

/-- PADD Pd, Ps1, Ps2: `P[rd] <- add(P[rs1], P[rs2])` (spec R187). -/
def execPadd (rd rs1 rs2 : PReg) (s : State) : Host.Outcome State Fault Refusal :=
  s.finish (encode (.padd rd rs1 rs2)) (do
    let c ← s.needCurve
    let R ← add c (s.readP rs1) (s.readP rs2)
    .ok (s.writeP rd R))

/-- PDBL Pd, Ps1: `P[rd] <- double(P[rs1])` (spec R188). -/
def execPdbl (rd rs1 : PReg) (s : State) : Host.Outcome State Fault Refusal :=
  s.finish (encode (.pdbl rd rs1)) (do
    let c ← s.needCurve
    let R ← double c (s.readP rs1)
    .ok (s.writeP rd R))

/-- SMUL Pd, Ps1, Fs2: `P[rd] <- scalarMultiply(P[rs1], F[rs2])` (spec R189). -/
def execSmul (rd rs1 : PReg) (rs2 : FReg) (s : State) : Host.Outcome State Fault Refusal :=
  s.finish (encode (.smul rd rs1 rs2)) (do
    let c ← s.needCurve
    let R ← scalarMultiply c (s.readP rs1) (s.readF rs2).toNat
    .ok (s.writeP rd R))

end Sys2Proof.Machine
end

