-- ==== Sys2Proof/Machine/PointCommands.lean ====
section
/-! DEFINITION. The Point commands (spec 40_point.md): none needs a curve, none faults. -/

namespace Sys2Proof.Machine

/-- PT.ZERO Pd: `P[rd] <- (0, 0)` (spec R121). -/
def execPtZero (rd : PReg) (s : State) : Host.Outcome State Fault Refusal :=
  s.finish (encode (.ptZero rd)) (.ok (s.writeP rd identityPoint))

/-- PT.SET Pd, Fs1, Fs2: `P[rd] <- (F[rs1], F[rs2])`, unreduced and unchecked (spec R122). -/
def execPtSet (rd : PReg) (rs1 rs2 : FReg) (s : State) : Host.Outcome State Fault Refusal :=
  s.finish (encode (.ptSet rd rs1 rs2)) (.ok (s.writeP rd ⟨s.readF rs1, s.readF rs2⟩))

/-- PT.GETX Fd, Ps1: `F[rd] <- P[rs1].x` (spec R123). -/
def execPtGetx (rd : FReg) (rs1 : PReg) (s : State) : Host.Outcome State Fault Refusal :=
  s.finish (encode (.ptGetx rd rs1)) (.ok (s.writeF rd (s.readP rs1).x))

/-- PT.GETY Fd, Ps1: `F[rd] <- P[rs1].y` (spec R124). -/
def execPtGety (rd : FReg) (rs1 : PReg) (s : State) : Host.Outcome State Fault Refusal :=
  s.finish (encode (.ptGety rd rs1)) (.ok (s.writeF rd (s.readP rs1).y))

/-- PT.ISZ Ps1: `T <- isZero(P[rs1])` (spec R125). -/
def execPtIsz (rs1 : PReg) (s : State) : Host.Outcome State Fault Refusal :=
  s.finish (encode (.ptIsz rs1)) (.ok (s.setT (isZero (s.readP rs1))))

/-- PT.EQ Ps1, Ps2: `T <-` structural equality (spec R126). -/
def execPtEq (rs1 rs2 : PReg) (s : State) : Host.Outcome State Fault Refusal :=
  s.finish (encode (.ptEq rs1 rs2)) (.ok (s.setT (samePoint (s.readP rs1) (s.readP rs2))))

end Sys2Proof.Machine
end

