-- ==== Sys2Proof/Machine/SolverCommand.lean ====
section
/-! DEFINITION. The solver command (spec 44_bsgs.md). -/

namespace Sys2Proof.Machine

/-- The state a DLOG leaves outside its results: the table, cleared before use, is left free once the
search has been entered (spec R38, U5; log 7); without a curve nothing is entered. -/
def State.afterSolver (s : State) : State := if s.cvalid then s.forgetTable else s

/-- DLOG Fd, Ps1, Ps2: `F[rd] <- discreteLogarithm(P[rs1], P[rs2])` (spec R201). -/
def execDlog (rd : FReg) (rs1 rs2 : PReg) (s : State) : Host.Outcome State Fault Refusal :=
  s.afterSolver.finish (encode (.dlog rd rs1 rs2)) (do
    let c ← s.needCurve
    let k ← discreteLogarithm c s.suppliedOrder Config.memoryLimit s.table (s.readP rs1) (s.readP rs2)
    .ok (s.afterSolver.writeF rd (toReg k)))

end Sys2Proof.Machine
end

