-- ==== Sys2Proof/Machine/Dispatch.lean ====
section
/-! DEFINITION. One arm per command. `exec` is the execution of a command the port has accepted
(spec R66): the mode check is the port's, in Machine/Bus.lean. -/

namespace Sys2Proof.Machine

def exec (i : Instr) (s : State) : Host.Outcome State Fault Refusal :=
  match i with
  | .fack => Sys2Proof.Machine.execFack s
  | .ptZero rd => Sys2Proof.Machine.execPtZero rd s
  | .ptSet rd rs1 rs2 => Sys2Proof.Machine.execPtSet rd rs1 rs2 s
  | .ptGetx rd rs1 => Sys2Proof.Machine.execPtGetx rd rs1 s
  | .ptGety rd rs1 => Sys2Proof.Machine.execPtGety rd rs1 s
  | .ptIsz rs1 => Sys2Proof.Machine.execPtIsz rs1 s
  | .ptEq rs1 rs2 => Sys2Proof.Machine.execPtEq rs1 rs2 s
  | .crvInit rs1 => Sys2Proof.Machine.execCrvInit rs1 s
  | .crvSecp => Sys2Proof.Machine.execCrvSecp s
  | .crvGetp rd => Sys2Proof.Machine.execCrvGetp rd s
  | .ordGet rd => Sys2Proof.Machine.execOrdGet rd s
  | .ordSet rs1 => Sys2Proof.Machine.execOrdSet rs1 s
  | .haspt rs1 => Sys2Proof.Machine.execHaspt rs1 s
  | .pneg rd rs1 => Sys2Proof.Machine.execPneg rd rs1 s
  | .padd rd rs1 rs2 => Sys2Proof.Machine.execPadd rd rs1 rs2 s
  | .pdbl rd rs1 => Sys2Proof.Machine.execPdbl rd rs1 s
  | .smul rd rs1 rs2 => Sys2Proof.Machine.execSmul rd rs1 rs2 s
  | .fmul rd rs1 rs2 => Sys2Proof.Machine.execFmul rd rs1 rs2 s
  | .finv rd rs1 => Sys2Proof.Machine.execFinv rd rs1 s
  | .fsqrt rd rs1 => Sys2Proof.Machine.execFsqrt rd rs1 s
  | .dlog rd rs1 rs2 => Sys2Proof.Machine.execDlog rd rs1 rs2 s

end Sys2Proof.Machine
end

