-- ==== Sys2Proof/Machine/Engine.lean ====
section
/-! DEFINITION. The engine: it ends the command in flight (spec R37, R66), and what the host may see
of it meanwhile (R67). -/

namespace Sys2Proof.Machine

/-- The engine ends the command in flight: the word taken at the `CMD` write is decoded and executed,
or faults E_ILLEGAL_CMD when it is no command (spec R66, R95, R232). With no command in flight nothing
happens. -/
def engineStep (s : State) : Host.Outcome State Fault Refusal :=
  match s.mode with
  | .busy w =>
    match decode w with
    | .ok i => exec i s
    | .error _ => .next (s.raise .illegalCmd w)
  | .idle => .next s
  | .faulted => .next s

/-- The state the command in flight will leave, for the values "after it" of spec R67. Nothing the
host can do meanwhile changes it, reset apart (R67). -/
def State.afterCommand (s : State) : State :=
  match engineStep s with
  | .next s' => s'
  | .fault _ => s
  | .refused _ => s

end Sys2Proof.Machine
end

