-- ==== Sys2Proof/Machine/Bus.lean ====
section
/-! DEFINITION. The host port: the register map and the transactions on it (spec 20_memory.md), and
reset (R270, R271). -/

namespace Sys2Proof.Machine

/-- The mapped words of the host register space (spec R61); `k` is a word index, `i` a register
index. -/
inductive Loc where
  /-- `0x000` -/
  | cmd
  /-- `0x004` -/
  | status
  /-- `0x008` -/
  | err
  /-- `0x00C` -/
  | faultcmd
  /-- `0x010` -/
  | arga
  /-- `0x014` -/
  | argb
  /-- `0x018` -/
  | ca
  /-- `0x01C` -/
  | cb
  /-- `0x020` -/
  | memlim
  /-- `0x040 + 4k` -/
  | cp (k : Fin 8)
  /-- `0x060 + 4k` -/
  | cn (k : Fin 8)
  /-- `0x200 + 32i + 4k` -/
  | f (i : FReg) (k : Fin 8)
  /-- `0x400 + 64i + 4k` -/
  | px (i : PReg) (k : Fin 8)
  /-- `0x420 + 64i + 4k` -/
  | py (i : PReg) (k : Fin 8)
deriving DecidableEq, Repr

/-- The word index of a word-aligned address, its bits 4:2 (spec R61). -/
def wordIndex (addr : Nat) : Fin 8 := ⟨addr / 4 % 8, Nat.mod_lt _ (by decide)⟩

/-- The field register an address of `0x200`-`0x3FF` falls in (spec R61). -/
def fieldIndex (addr : Nat) : FReg := ⟨addr / 32 % 16, Nat.mod_lt _ (by decide)⟩

/-- The point register an address of `0x400`-`0x7FF` falls in (spec R61). -/
def pointIndex (addr : Nat) : PReg := ⟨addr / 64 % 16, Nat.mod_lt _ (by decide)⟩

/-- The word at a byte address, `none` where the access is misaligned, outside the window or unmapped
(spec R61, R64). -/
def locate (addr : Nat) : Option Loc :=
  if addr % 4 ≠ 0 then none
  else if addr = 0x000 then some .cmd
  else if addr = 0x004 then some .status
  else if addr = 0x008 then some .err
  else if addr = 0x00C then some .faultcmd
  else if addr = 0x010 then some .arga
  else if addr = 0x014 then some .argb
  else if addr = 0x018 then some .ca
  else if addr = 0x01C then some .cb
  else if addr = 0x020 then some .memlim
  else if addr < 0x040 then none
  else if addr < 0x060 then some (.cp (wordIndex addr))
  else if addr < 0x080 then some (.cn (wordIndex addr))
  else if addr < 0x200 then none
  else if addr < 0x400 then some (.f (fieldIndex addr) (wordIndex addr))
  else if addr < 0x800 then
    if addr % 64 < 32 then some (.px (pointIndex addr) (wordIndex addr))
    else some (.py (pointIndex addr) (wordIndex addr))
  else none

/-- Whether the map lists the word as read/write (spec R61, R64). `CMD` is not one of them: a write to
it is the issue of a command (R66). -/
def Loc.writable (l : Loc) : Bool :=
  match l with
  | .arga => true
  | .argb => true
  | .f _ _ => true
  | .px _ _ => true
  | .py _ _ => true
  | .cmd => false
  | .status => false
  | .err => false
  | .faultcmd => false
  | .ca => false
  | .cb => false
  | .memlim => false
  | .cp _ => false
  | .cn _ => false

/-- The word a read returns outside BUSY (spec R29, R30 to R36, R61). -/
def State.readLoc (s : State) (l : Loc) : Word32 :=
  match l with
  | .cmd => 0
  | .status => s.statusWord
  | .err => s.err.setWidth 32
  | .faultcmd => s.faultcmd
  | .arga => s.arga
  | .argb => s.argb
  | .ca => s.ca
  | .cb => s.cb
  | .memlim => BitVec.ofNat 32 Config.memoryLimit
  | .cp k => wordAt s.cp k
  | .cn k => wordAt s.cn k
  | .f i k => wordAt (s.readF i) k
  | .px i k => wordAt (s.readP i).x k
  | .py i k => wordAt (s.readP i).y k

/-- The named 32 bits replaced by `v`, the other bits of the register unchanged (spec R63); a word
that is not read/write is left as it is. -/
def State.writeLoc (s : State) (l : Loc) (v : Word32) : State :=
  match l with
  | .arga => { s with arga := v }
  | .argb => { s with argb := v }
  | .f i k => s.writeF i (setWordAt (s.readF i) k v)
  | .px i k => s.writeP i { s.readP i with x := setWordAt (s.readP i).x k v }
  | .py i k => s.writeP i { s.readP i with y := setWordAt (s.readP i).y k v }
  | .cmd => s
  | .status => s
  | .err => s
  | .faultcmd => s
  | .ca => s
  | .cb => s
  | .memlim => s
  | .cp _ => s
  | .cn _ => s

/-- What the transaction returns to the host. -/
def State.answer (s : State) (r : Reply) : State := { s with reply := r }

/-- The next free value has been used. -/
def State.useFree (s : State) : State := { s with freeCount := s.freeCount + 1 }

/-- A refused read: `ERROR`, with data that is not defined and therefore FREE (spec R62, R64; log 5). -/
def State.refuseRead (s : State) : State :=
  (s.answer (.read .error (Config.errorReadData s.freeCount))).useFree

/-- A refused write: `ERROR`, nothing changes (spec R64). -/
def State.refuseWrite (s : State) : State := s.answer (.write .error)

/-- A read answered `OK`. -/
def State.answerRead (s : State) (v : Word32) : State := s.answer (.read .ok v)

/-- A write of a command to `CMD` is accepted in IDLE: `OK`, `DONE <- 0`, the engine becomes BUSY
with the word (spec R39, R66). -/
def State.acceptCommand (s : State) (w : Word32) : State :=
  { s with done := false, mode := .busy w, reply := .write .ok }

/-- A host read (spec R62; R67 while BUSY, R68 while FAULTED). -/
def busRead (addr width : Nat) (s : State) : State :=
  match s.mode with
  | .busy _ =>
    if width = 4 ∧ locate addr = some .status then
      (s.answerRead
        (statusWhileBusy (Config.busyStatusPick s.freeCount) s s.afterCommand)).useFree
    else s.refuseRead
  | .idle =>
    if width = 4 then
      match locate addr with
      | some l => s.answerRead (s.readLoc l)
      | none => s.refuseRead
    else s.refuseRead
  | .faulted =>
    if width = 4 then
      match locate addr with
      | some l => s.answerRead (s.readLoc l)
      | none => s.refuseRead
    else s.refuseRead

/-- A host write (spec R63, R64, R66; R67 while BUSY, R68 while FAULTED). In FAULTED only the FACK
word is accepted at `CMD`; it is executed at once (R37: FAULTED to IDLE; log 10). -/
def busWrite (addr width : Nat) (v : Word32) (s : State) : Host.Outcome State Fault Refusal :=
  match s.mode with
  | .busy _ => .next s.refuseWrite
  | .faulted =>
    if width = 4 ∧ locate addr = some .cmd ∧ v = encode .fack then
      exec .fack (s.answer (.write .ok))
    else .next s.refuseWrite
  | .idle =>
    if width = 4 then
      match locate addr with
      | some .cmd => .next (s.acceptCommand v)
      | some l =>
        if l.writable then .next ((s.writeLoc l v).answer (.write .ok)) else .next s.refuseWrite
      | none => .next s.refuseWrite
    else .next s.refuseWrite

/-- Reset asserted, in any mode (spec R270, R271): the reset state, whatever was in flight abandoned.
What the host does next is not the machine's to forget; the table is unspecified after reset (R40),
so free (log 7). -/
def resetMachine (s : State) : State :=
  { State.reset with
    inputs := s.inputs
    table := boundedTable Config.memoryLimit (Config.tableResidue s.freeCount)
    freeCount := s.freeCount + 1 }

/-- One event at the port. -/
def deliver (e : Input) (s : State) : Host.Outcome State Fault Refusal :=
  match e with
  | .read addr width => .next (busRead addr width s)
  | .write addr width v => busWrite addr width v s
  | .reset => .next (resetMachine s)
  | .engine => engineStep s

/-- The next thing that happens: the first pending event; with none pending the engine ends the
command in flight, or the machine waits for the host (spec R27, R73; log 2). -/
def nextEvent (s : State) : Host.Outcome State Fault Refusal :=
  match s.inputs with
  | [] => engineStep s
  | e :: rest => deliver e { s with inputs := rest }

end Sys2Proof.Machine
end

