-- ==== Sys2Proof/Machine/Step.lean ====
section
/-! DEFINITION. One step of the machine, and where a step finds its command. -/

namespace Sys2Proof.Machine

/-- One step: one host transaction, one reset, or one whole command (spec R37: "a model may execute a
command as one atomic step"). -/
def step (s : State) : Host.Outcome State Fault Refusal := nextEvent s

/-- `s` with the command word `w` in flight, as an accepted `CMD` write leaves it (mode BUSY, `DONE`
cleared: spec R66), and the engine's event next, so that the very next step decodes and executes it.
ECC-CORE has no program counter (R27): a command comes from the port (log 9). A command has no word
beyond its 32 bits (R90), so `nbits` adds nothing. -/
def State.withFetchWord (s : State) (_nbits w : Nat) : State :=
  { s with
    mode := .busy (BitVec.ofNat 32 w)
    done := false
    inputs := .engine :: s.inputs }

end Sys2Proof.Machine
end

