-- ==== Sys2Proof/Safety.lean ====
section
/-! DEFINITION. The invariants of the machine that the spec states, in the terms the claims use. -/

namespace Sys2Proof.Machine

/-- The baby-step table is a finite partial map from points to positive integers with at most
`limit` keys (spec R38). -/
structure TableOk (limit : Nat) (tab : Table) : Prop where
  /-- no key stands twice -/
  keysDistinct : (tab.map Prod.fst).Nodup
  /-- indices are positive -/
  indicesPositive : ∀ e ∈ tab, 0 < e.2
  /-- the capacity is not exceeded -/
  withinCapacity : tab.length ≤ limit

/-- What the spec says of every state the machine can be in. -/
structure State.Inv (s : State) : Prop where
  /-- `ERR != 0` iff `FAULT = 1` (R33) -/
  errIffFault : s.err ≠ 0 ↔ s.faultBit = true
  /-- codes 9 to 255 are never written to `ERR` (R230) -/
  errInRange : s.err.toNat ≤ 8
  /-- `FAULTCMD` is 0 when `FAULT = 0` (R34) -/
  faultcmdClear : s.faultBit = false → s.faultcmd = 0
  /-- `DONE` is 0 while a command executes and after a fault (R39, R67) -/
  doneOnlyIdle : s.done = true → s.mode = .idle
  /-- without a curve `CA`, `CB`, `CP` hold 0 (R30) -/
  noCurveClear : s.cvalid = false → s.ca = 0 ∧ s.cb = 0 ∧ s.cp = 0
  /-- with a curve `p >= 1` (R30) -/
  primePositive : s.cvalid = true → s.cp ≠ 0
  /-- with a curve `4a^3 + 27b^2 != 0` (R30) -/
  curveNonsingular : s.cvalid = true → discriminant (sext32 s.ca) (sext32 s.cb) ≠ 0
  /-- without a supplied order `CN` holds 0 (R31, R40) -/
  noOrderClear : s.ovalid = false → s.cn = 0
  /-- an order belongs to a curve (R31, R147) -/
  orderHasCurve : s.ovalid = true → s.cvalid = true
  /-- the table keeps its form (R38) -/
  tableForm : TableOk Config.memoryLimit s.table

end Sys2Proof.Machine
end

