-- ==== Sys2Proof/Certificates/Slice0/Obligations.lean ====
section
/-! DEFINITION. The statements for the provers, and the vocabulary they are written in (namespace
Sys2Proof.Claims): the spec's own notions, written out independently of the model's functions where
the spec gives a closed form. -/

namespace Sys2Proof.Claims

open Sys2Proof.Machine

/-- The word of spec R91 with these fields, `zero` being 0. -/
def word (opcode : Nat) (rd rs1 rs2 : Fin 16) : Word32 :=
  BitVec.ofNat 32 (opcode * 2 ^ 24 + rd.val * 2 ^ 20 + rs1.val * 2 ^ 16 + rs2.val * 2 ^ 12)

/-- Spec R233: FAULTED with this code and word, everything else as before. -/
def faulted (s : State) (code : BitVec 8) (w : Word32) : State :=
  { s with mode := .faulted, err := code, faultcmd := w, done := false }

/-- The mnemonic of spec R94. -/
def mnemonic (i : Instr) : String :=
  match i with
  | .fack => "FACK"
  | .ptZero _ => "PT.ZERO"
  | .ptSet _ _ _ => "PT.SET"
  | .ptGetx _ _ => "PT.GETX"
  | .ptGety _ _ => "PT.GETY"
  | .ptIsz _ => "PT.ISZ"
  | .ptEq _ _ => "PT.EQ"
  | .crvInit _ => "CRV.INIT"
  | .crvSecp => "CRV.SECP"
  | .crvGetp _ => "CRV.GETP"
  | .ordGet _ => "ORD.GET"
  | .ordSet _ => "ORD.SET"
  | .haspt _ => "HASPT"
  | .pneg _ _ => "PNEG"
  | .padd _ _ _ => "PADD"
  | .pdbl _ _ => "PDBL"
  | .smul _ _ _ => "SMUL"
  | .fmul _ _ _ => "FMUL"
  | .finv _ _ => "FINV"
  | .fsqrt _ _ => "FSQRT"
  | .dlog _ _ _ => "DLOG"

/-- The destination among the field registers, if the command has one (spec R92, R94). -/
def destF (i : Instr) : Option FReg :=
  match i with
  | .ptGetx rd _ => some rd
  | .ptGety rd _ => some rd
  | .crvGetp rd => some rd
  | .ordGet rd => some rd
  | .fmul rd _ _ => some rd
  | .finv rd _ => some rd
  | .fsqrt rd _ => some rd
  | .dlog rd _ _ => some rd
  | .fack => none
  | .ptZero _ => none
  | .ptSet _ _ _ => none
  | .ptIsz _ => none
  | .ptEq _ _ => none
  | .crvInit _ => none
  | .crvSecp => none
  | .ordSet _ => none
  | .haspt _ => none
  | .pneg _ _ => none
  | .padd _ _ _ => none
  | .pdbl _ _ => none
  | .smul _ _ _ => none

/-- The destination among the point registers, if the command has one (spec R92, R94). -/
def destP (i : Instr) : Option PReg :=
  match i with
  | .ptZero rd => some rd
  | .ptSet rd _ _ => some rd
  | .pneg rd _ => some rd
  | .padd rd _ _ => some rd
  | .pdbl rd _ => some rd
  | .smul rd _ _ => some rd
  | .fack => none
  | .ptGetx _ _ => none
  | .ptGety _ _ => none
  | .ptIsz _ => none
  | .ptEq _ _ => none
  | .crvInit _ => none
  | .crvSecp => none
  | .crvGetp _ => none
  | .ordGet _ => none
  | .ordSet _ => none
  | .haspt _ => none
  | .fmul _ _ _ => none
  | .finv _ _ => none
  | .fsqrt _ _ => none
  | .dlog _ _ _ => none

/-- The three commands that write `T` (spec R28). -/
def isPredicate (i : Instr) : Bool :=
  match i with
  | .ptIsz _ => true
  | .ptEq _ _ => true
  | .haspt _ => true
  | _ => false

/-- The two commands that write `CA`, `CB`, `CP`, `CVALID` (spec R30). -/
def isConstruction (i : Instr) : Bool :=
  match i with
  | .crvInit _ => true
  | .crvSecp => true
  | _ => false

/-- The three commands that write `CN`, `OVALID` (spec R31). -/
def writesOrder (i : Instr) : Bool :=
  match i with
  | .ordSet _ => true
  | _ => isConstruction i

/-- The command that uses the baby-step table (spec R38). -/
def isDlog (i : Instr) : Bool :=
  match i with
  | .dlog _ _ _ => true
  | _ => false

/-- The commands that read the curve (spec R231, the list of R230's row E_NO_CURVE). -/
def needsCurve (i : Instr) : Bool :=
  match i with
  | .crvGetp _ => true
  | .ordGet _ => true
  | .ordSet _ => true
  | .haspt _ => true
  | .pneg _ _ => true
  | .padd _ _ _ => true
  | .pdbl _ _ => true
  | .smul _ _ _ => true
  | .fmul _ _ _ => true
  | .finv _ _ => true
  | .fsqrt _ _ => true
  | .dlog _ _ _ => true
  | _ => false

/-- The table of spec R243, beside its column E_NO_CURVE: which command can raise which fault once
decoded. -/
def ownFaults (i : Instr) : List FaultCode :=
  match i with
  | .crvInit _ => [.curveParams]
  | .ordGet _ => [.range]
  | .padd _ _ _ => [.notInvertible]
  | .pdbl _ _ => [.notInvertible]
  | .finv _ _ => [.notInvertible]
  | .smul _ _ _ => [.invalidInput, .notInvertible]
  | .fsqrt _ _ => [.unsupportedModulus]
  | .dlog _ _ _ => [.invalidInput, .notInvertible, .searchExhausted, .range]
  | _ => []

/-- The byte address of a mapped word, the table of spec R61. -/
def address (l : Loc) : Nat :=
  match l with
  | .cmd => 0x000
  | .status => 0x004
  | .err => 0x008
  | .faultcmd => 0x00C
  | .arga => 0x010
  | .argb => 0x014
  | .ca => 0x018
  | .cb => 0x01C
  | .memlim => 0x020
  | .cp k => 0x040 + 4 * k.val
  | .cn k => 0x060 + 4 * k.val
  | .f i k => 0x200 + 32 * i.val + 4 * k.val
  | .px i k => 0x400 + 64 * i.val + 4 * k.val
  | .py i k => 0x420 + 64 * i.val + 4 * k.val

/-- The words the map of spec R61 lists as read/write. -/
def readWrite (l : Loc) : Prop :=
  l = .arga ∨ l = .argb ∨ (∃ i k, l = .f i k) ∨ (∃ i k, l = .px i k) ∨ (∃ i k, l = .py i k)

/-- The content of each mapped word, as spec R29 to R36 and R61 name it. -/
def namedWord (s : State) (l : Loc) : Word32 :=
  match l with
  | .cmd => 0
  | .status => BitVec.ofNat 32
      ((match s.mode with | .idle => 0 | .busy _ => 1 | .faulted => 4) + 2 * s.done.toNat
        + 8 * s.t.toNat + 16 * s.cvalid.toNat + 32 * s.ovalid.toNat)
  | .err => BitVec.ofNat 32 s.err.toNat
  | .faultcmd => s.faultcmd
  | .arga => s.arga
  | .argb => s.argb
  | .ca => s.ca
  | .cb => s.cb
  | .memlim => BitVec.ofNat 32 Config.memoryLimit
  | .cp k => BitVec.ofNat 32 (s.cp.toNat / 2 ^ (32 * k.val))
  | .cn k => BitVec.ofNat 32 (s.cn.toNat / 2 ^ (32 * k.val))
  | .f i k => BitVec.ofNat 32 (s.fregs[i].toNat / 2 ^ (32 * k.val))
  | .px i k => BitVec.ofNat 32 (s.pregs[i].x.toNat / 2 ^ (32 * k.val))
  | .py i k => BitVec.ofNat 32 (s.pregs[i].y.toNat / 2 ^ (32 * k.val))

/-- Third and fourth line of the formulas of spec R182 and R183: the point of slope `lam` through
`(x1, y1)` and a point with abscissa `x2`. -/
def thirdPoint (p lam x1 y1 x2 : Int) : Point :=
  let x3 := (lam * lam - x1 - x2) % p
  let y3 := (lam * (x1 - x3) - y1) % p
  ⟨BitVec.ofInt 256 x3, BitVec.ofInt 256 y3⟩

/-- The pseudocode loop of spec R184, as a relation between `acc`, `power`, `k` and how it ends. -/
inductive ScalarWhile (c : Curve) : Point → Point → Nat → Except FaultCode Point → Prop
  /-- `k = 0`: the accumulator is returned. -/
  | finished (acc power : Point) : ScalarWhile c acc power 0 (.ok acc)
  /-- An odd `k` whose `add` raises. -/
  | addRaises (acc power : Point) (k : Nat) (e : FaultCode) (odd : k % 2 = 1)
      (raises : add c acc power = .error e) : ScalarWhile c acc power k (.error e)
  /-- An odd `k` whose doubling raises. -/
  | oddDoubleRaises (acc power acc' : Point) (k : Nat) (e : FaultCode) (odd : k % 2 = 1)
      (adds : add c acc power = .ok acc') (raises : double c power = .error e) :
      ScalarWhile c acc power k (.error e)
  /-- An odd `k`: add, double, halve. -/
  | oddDigit (acc power acc' power' : Point) (k : Nat) (r : Except FaultCode Point) (odd : k % 2 = 1)
      (adds : add c acc power = .ok acc') (doubles : double c power = .ok power')
      (rest : ScalarWhile c acc' power' (k / 2) r) : ScalarWhile c acc power k r
  /-- An even, positive `k` whose doubling raises. -/
  | evenDoubleRaises (acc power : Point) (k : Nat) (e : FaultCode) (pos : 0 < k) (even : k % 2 = 0)
      (raises : double c power = .error e) : ScalarWhile c acc power k (.error e)
  /-- An even, positive `k`: double, halve. -/
  | evenDigit (acc power power' : Point) (k : Nat) (r : Except FaultCode Point) (pos : 0 < k)
      (even : k % 2 = 0) (doubles : double c power = .ok power')
      (rest : ScalarWhile c acc power' (k / 2) r) : ScalarWhile c acc power k r

/-- `n`-fold repeated `add` of `Q` to itself, `n + 1` summands (spec R190). -/
def repeatedAdd (c : Curve) (Q : Point) (n : Nat) : Except FaultCode Point :=
  match n with
  | 0 => .ok Q
  | n + 1 => do
    let R ← repeatedAdd c Q n
    add c R Q

/-- The group sum of two valid points of a supported curve (spec R190): what `add` returns, or the
identity where `add` raises "instead of returning the identity". -/
def groupSum (c : Curve) (Q1 Q2 : Point) : Point :=
  match add c Q1 Q2 with
  | .ok R => R
  | .error _ => ⟨0, 0⟩

/-- `n·Q` in the group: the `n`-fold group sum, `0·Q` being the identity (spec R190, R204). -/
def groupMultiple (c : Curve) (Q : Point) (n : Nat) : Point :=
  match n with
  | 0 => ⟨0, 0⟩
  | n + 1 => groupSum c (groupMultiple c Q n) Q

/-- A supported curve (spec R190) whose prime fits its register. -/
structure Supported (c : Curve) : Prop where
  /-- `p` is a prime -/
  prime : c.p.Prime
  /-- greater than 3 -/
  large : 3 < c.p
  /-- `(4a^3 + 27b^2) mod p != 0` -/
  nonsingular : ¬ (c.p : Int) ∣ 4 * c.a ^ 3 + 27 * c.b ^ 2
  /-- `b mod p != 0` -/
  bNonzero : ¬ (c.p : Int) ∣ c.b
  /-- `p < 2^W` -/
  fits : c.p < 2 ^ 256

/-- A valid point (spec R190): the identity, or canonical coordinates and `hasPoint`. -/
def Valid (c : Curve) (Q : Point) : Prop :=
  (Q.x = 0 ∧ Q.y = 0) ∨ (Q.x.toNat < c.p ∧ Q.y.toNat < c.p ∧ hasPoint c Q = true)

/-- Number of `j` with a baby step: `min(m, L)` (spec R200). -/
def babyCount (n : Nat) : Nat := min (ceilSqrt n) Config.memoryLimit

/-- Giant step `i` finds baby step `j`, and no smaller `j` (spec R200, R203). -/
def HitAt (c : Curve) (G Pt : Point) (n i j : Nat) : Prop :=
  1 ≤ i ∧ i ≤ ceilSqrt n ∧ 1 ≤ j ∧ j ≤ babyCount n ∧
    ∃ mG S Q, scalarMultiply c G (ceilSqrt n) = .ok mG ∧ scalarMultiply c mG i = .ok S ∧
      add c Pt (negatePoint c S) = .ok Q ∧ scalarMultiply c G j = .ok Q ∧
      ∀ j', 1 ≤ j' → j' < j → scalarMultiply c G j' ≠ .ok Q

/-- Giant step `i` computes its probe and finds no baby step (spec R200). -/
def MissAt (c : Curve) (G Pt : Point) (n i : Nat) : Prop :=
  ∃ mG S Q, scalarMultiply c G (ceilSqrt n) = .ok mG ∧ scalarMultiply c mG i = .ok S ∧
    add c Pt (negatePoint c S) = .ok Q ∧
    ∀ j, 1 ≤ j → j ≤ babyCount n → scalarMultiply c G j ≠ .ok Q

/-- What a DLOG finds before its search: both points on the curve, the order `n`, and every baby step
computed (spec R200). -/
def SearchEntered (s : State) (G Pt : Point) (n : Nat) : Prop :=
  s.cvalid = true ∧ hasPoint s.curve G = true ∧ hasPoint s.curve Pt = true ∧
    groupOrder s.curve s.suppliedOrder = .ok n ∧
    ∀ j, 1 ≤ j → j ≤ babyCount n → ∃ K, scalarMultiply s.curve G j = .ok K

/-- The affine solutions of the curve equation in `[0, p)^2` (spec R140). -/
def affineSolutions (c : Curve) : Finset (Nat × Nat) :=
  (Finset.range c.p ×ˢ Finset.range c.p).filter (fun q =>
    ((q.2 : Int) * q.2 - ((q.1 : Int) * q.1 * q.1 + c.a * q.1 + c.b)) % (c.p : Int) = 0)

end Sys2Proof.Claims

open Sys2Proof Sys2Proof.Machine Sys2Proof.Claims

/-! ### Encoding -/

/-- Decoding and encoding are inverse to each other on all words and all commands: every operand at
every value, and no word is read as a command it does not encode (spec R91, R94, R95). -/
def Obligations.DecodeAndEncodeAgree : Prop :=
  ∀ (w : Word32) (i : Instr), decode w = .ok i ↔ encode i = w

/-- Spec R94, R95: a word matching a row's mask and pattern decodes to that row's command, a word
matching no row decodes to nothing, and no word matches two rows. -/
def Obligations.DecodeFollowsOpcodeTable : Prop :=
  ∀ w : Word32,
    (∀ r ∈ opcodeTable, w &&& r.mask = r.pattern → ∃ i, decode w = .ok i ∧ mnemonic i = r.mnemonic) ∧
    ((∀ r ∈ opcodeTable, w &&& r.mask ≠ r.pattern) → ∃ e, decode w = .error e) ∧
    (∀ r ∈ opcodeTable, ∀ r' ∈ opcodeTable,
      w &&& r.mask = r.pattern → w &&& r'.mask = r'.pattern → r = r')

/-- Words of the table of 95_test_vectors.md section 2.1 and the examples of spec R97. -/
def Obligations.SpecWordsDecode : Prop :=
  decode 0x01000000 = .ok .fack ∧ decode 0x11002000 = .ok (.ptSet 0 0 2) ∧
  decode 0x12130000 = .ok (.ptGetx 1 3) ∧ decode 0x24020000 = .ok (.ordSet 2) ∧
  decode 0x2A312000 = .ok (.padd 3 1 2) ∧ decode 0x2C201000 = .ok (.smul 2 0 1) ∧
  decode 0x31120000 = .ok (.finv 1 2) ∧ decode 0x40FFF000 = .ok (.dlog 15 15 15)

/-- Spec R232: the word in flight is not one of the 21 commands (unknown opcode, `w[11:0]` not 0 or an
unused register field not 0): the engine, and the step in which it ends the word (with no event pending
or at its event: log 2), fault E_ILLEGAL_CMD with `FAULTCMD` the word, and nothing else; otherwise the
word is that of a command, which the engine executes. -/
def Obligations.IllegalWordsFault : Prop :=
  ∀ (s : State) (w : Word32), s.mode = .busy w →
    ((CmdFields.ofWord w).wellFormed = false →
      engineStep s = .next (faulted s 6 w) ∧
      (s.inputs = [] → step s = .next (faulted s 6 w)) ∧
      ∀ rest, s.inputs = .engine :: rest →
        step s = .next (faulted { s with inputs := rest } 6 w)) ∧
    ((CmdFields.ofWord w).wellFormed = true → ∃ i, encode i = w ∧ engineStep s = exec i s)

/-! ### The step and the port -/

/-- With a word in flight, decodable or not, a step with no event pending, with the engine's event next,
or from `withFetchWord` is the engine's step on that word; when the word decodes, that is the command it
decodes to. The event is consumed and nothing else is added (spec R66; model's event list: log 1, 2,
9). -/
def Obligations.StepRunsDecodedCommand : Prop :=
  ∀ (s : State) (w : Word32),
    (s.mode = .busy w → s.inputs = [] → step s = engineStep s) ∧
    (∀ rest, s.mode = .busy w → s.inputs = .engine :: rest →
      step s = engineStep { s with inputs := rest }) ∧
    (step (s.withFetchWord 32 w.toNat) = engineStep { s with mode := .busy w, done := false }) ∧
    ∀ i, decode w = .ok i →
      (s.mode = .busy w → s.inputs = [] → step s = exec i s) ∧
      (∀ rest, s.mode = .busy w → s.inputs = .engine :: rest →
        step s = exec i { s with inputs := rest }) ∧
      (step (s.withFetchWord 32 w.toNat) = exec i { s with mode := .busy w, done := false })

/-- Spec R66: the issue of a command, in each mode. That a FACK accepted in FAULTED has ended when its
write has is the model's reading of R37 (log 10); the event list is the model's (log 1). -/
def Obligations.CmdWriteIssuesCommand : Prop :=
  ∀ (s : State) (w : Word32) (rest : List Input), s.inputs = .write 0 4 w :: rest →
    (s.mode = .idle → step s = .next
      { s with inputs := rest, reply := .write .ok, done := false, mode := .busy w }) ∧
    (s.mode = .faulted → w = 0x01000000 → step s = .next
      { s with inputs := rest, reply := .write .ok, done := true, mode := .idle, err := 0,
               faultcmd := 0 }) ∧
    (s.mode = .faulted → w ≠ 0x01000000 →
      step s = .next { s with inputs := rest, reply := .write .error }) ∧
    (∀ v, s.mode = .busy v → step s = .next { s with inputs := rest, reply := .write .error })

/-- Spec R62: a read in IDLE or FAULTED of a mapped offset returns `OK` and the word the table names
(`CMD` reads 0); any other read, that of `STATUS` while BUSY apart, returns `ERROR`; no read has a side
effect. -/
def Obligations.ReadsReturnTheMapAndChangeNothing : Prop :=
  ∀ (s : State) (addr width : Nat) (rest : List Input), s.inputs = .read addr width :: rest →
    (s.mode = .idle ∨ s.mode = .faulted → ∀ l, addr = address l → width = 4 →
      step s = .next { s with inputs := rest, reply := .read .ok (namedWord s l) }) ∧
    ((∀ l, addr ≠ address l) ∨ width ≠ 4 ∨ (addr ≠ 4 ∧ ∃ w, s.mode = .busy w) → ∃ d k,
      step s = .next { s with inputs := rest, reply := .read .error d, freeCount := k })

/-- Spec R63: a write in IDLE to a read/write word replaces exactly those 32 bits: that word then
reads as `v`, every other word of the map reads as before, and no state outside the four kinds of
writable registers changes. -/
def Obligations.WritesReplaceOneWord : Prop :=
  ∀ (s : State) (l : Loc) (v : Word32) (rest : List Input),
    s.inputs = .write (address l) 4 v :: rest → s.mode = .idle → readWrite l →
    ∃ F P a b, step s = .next { s with inputs := rest, reply := .write .ok, fregs := F, pregs := P,
                                       arga := a, argb := b } ∧
      ∀ l' : Loc, ({ s with fregs := F, pregs := P, arga := a, argb := b } : State).readLoc l' =
        if l' = l then v else s.readLoc l'

/-- Spec R64: every refused transaction returns `ERROR` and changes no state. -/
def Obligations.RefusedTransactionsChangeNothing : Prop :=
  ∀ (s : State) (addr width : Nat) (rest : List Input),
    (∀ v, s.inputs = .write addr width v :: rest →
      width ≠ 4 ∨ (∀ l, addr ≠ address l) ∨
        (∃ l, addr = address l ∧ ¬ readWrite l ∧ l ≠ .cmd) ∨
        (s.mode = .faulted ∧ ¬ (addr = 0 ∧ v = 0x01000000)) ∨ (∃ w, s.mode = .busy w) →
      step s = .next { s with inputs := rest, reply := .write .error }) ∧
    (s.inputs = .read addr width :: rest →
      width ≠ 4 ∨ (∀ l, addr ≠ address l) ∨ (addr ≠ 4 ∧ ∃ w, s.mode = .busy w) →
      ∃ d k, step s = .next { s with inputs := rest, reply := .read .error d, freeCount := k })

/-- Spec R61: each mapped word is found at its offset and nowhere else; every mapped offset is a
multiple of 4 below `0x800`. -/
def Obligations.RegisterMapHasNoAliases : Prop :=
  (∀ l, locate (address l) = some l) ∧ (∀ a l, locate a = some l → a = address l) ∧
    ∀ l, address l % 4 = 0 ∧ address l < 0x800

/-- Spec R69: a wide register is the sum of its eight words, the word at the lowest address least
significant. -/
def Obligations.WideRegistersAreLittleEndian : Prop :=
  ∀ (s : State) (i : Fin 16),
    (s.fregs[i].toNat = ∑ k : Fin 8, (s.readLoc (.f i k)).toNat * 2 ^ (32 * k.val)) ∧
    (s.pregs[i].x.toNat = ∑ k : Fin 8, (s.readLoc (.px i k)).toNat * 2 ^ (32 * k.val)) ∧
    (s.pregs[i].y.toNat = ∑ k : Fin 8, (s.readLoc (.py i k)).toNat * 2 ^ (32 * k.val)) ∧
    (s.cp.toNat = ∑ k : Fin 8, (s.readLoc (.cp k)).toNat * 2 ^ (32 * k.val)) ∧
    (s.cn.toNat = ∑ k : Fin 8, (s.readLoc (.cn k)).toNat * 2 ^ (32 * k.val))

/-- Spec R29: bit 0 of `STATUS` is 1 while BUSY, bit 1 is `DONE`, bit 2 is 1 in FAULTED, bits 3 to 5 are
`T`, `CVALID`, `OVALID`, and the other bits are 0. -/
def Obligations.StatusBits : Prop :=
  ∀ s : State,
    ((s.readLoc .status).getLsbD 0 = true ↔ ∃ w, s.mode = .busy w) ∧
    (s.readLoc .status).getLsbD 1 = s.done ∧
    ((s.readLoc .status).getLsbD 2 = true ↔ s.mode = .faulted) ∧
    (s.readLoc .status).getLsbD 3 = s.t ∧
    (s.readLoc .status).getLsbD 4 = s.cvalid ∧
    (s.readLoc .status).getLsbD 5 = s.ovalid ∧
    ∀ n, 6 ≤ n → (s.readLoc .status).getLsbD n = false

/-- Spec R67: while BUSY, a `STATUS` read returns `OK` with `BUSY = 1`, `DONE = 0`, `FAULT = 0`, and
`T`, `CVALID`, `OVALID` each as before the command or as after it. -/
def Obligations.StatusWhileBusy : Prop :=
  ∀ (s : State) (w : Word32) (rest : List Input), s.mode = .busy w →
    s.inputs = .read 4 4 :: rest → ∀ after, engineStep { s with inputs := rest } = .next after →
    ∃ d k, step s = .next { s with inputs := rest, reply := .read .ok d, freeCount := k } ∧
      d.getLsbD 0 = true ∧ d.getLsbD 1 = false ∧ d.getLsbD 2 = false ∧
      (d.getLsbD 3 = s.t ∨ d.getLsbD 3 = after.t) ∧
      (d.getLsbD 4 = s.cvalid ∨ d.getLsbD 4 = after.cvalid) ∧
      (d.getLsbD 5 = s.ovalid ∨ d.getLsbD 5 = after.ovalid) ∧
      ∀ n, 6 ≤ n → d.getLsbD n = false

/-- Spec R35: `MEMLIM` reads as the parameter, which is in the range spec R6 gives. -/
def Obligations.MemlimReadsTheLimit : Prop :=
  ∀ (s : State) (rest : List Input), s.mode = .idle ∨ s.mode = .faulted →
    s.inputs = .read 0x020 4 :: rest →
    ∃ v : Word32, step s = .next { s with inputs := rest, reply := .read .ok v } ∧
      v.toNat = Config.memoryLimit ∧ 1 ≤ Config.memoryLimit

/-! ### Reset and invariants -/

/-- Spec R40: the values after reset. (The table, and the model's own fields, are the model's choice
and are not stated here: log 1, 4, 5, 7.) -/
def Obligations.ResetValues : Prop :=
  (∀ i : Fin 16, State.reset.fregs[i] = 0) ∧ (∀ i : Fin 16, State.reset.pregs[i] = ⟨0, 0⟩) ∧
  State.reset.t = false ∧ State.reset.done = false ∧ State.reset.mode = .idle ∧
  State.reset.err = 0 ∧ State.reset.faultcmd = 0 ∧ State.reset.arga = 0 ∧ State.reset.argb = 0 ∧
  State.reset.ca = 0 ∧ State.reset.cb = 0 ∧ State.reset.cp = 0 ∧ State.reset.cvalid = false ∧
  State.reset.cn = 0 ∧ State.reset.ovalid = false ∧ State.reset.statusWord = 0

/-- Spec R270, R271: reset in any mode, a command in flight included, gives the reset state; only the
host's further events, the hidden table and the model's index of free values are not set by it (the
model's choices: log 1, 4, 5, 7). -/
def Obligations.ResetFromAnyMode : Prop :=
  ∀ (s : State) (rest : List Input), s.inputs = .reset :: rest →
    ∃ tab k, step s = .next { State.reset with inputs := rest, table := tab, freeCount := k }

/-- The invariant of Safety.lean (spec R30, R31, R33, R34, R38, R39, R230) holds after reset; that the
table is empty there is the model's choice (log 7). -/
def Obligations.ResetMeetsInvariant : Prop := State.reset.Inv

/-- Every step keeps the invariant of Safety.lean: `ERR != 0` iff `FAULT = 1` (R33), codes in range
(R230), `FAULTCMD` and `DONE` (R34, R39), the curve and order registers (R30, R31), the table (R38). -/
def Obligations.StepKeepsInvariant : Prop :=
  ∀ s t : State, s.Inv → step s = .next t → t.Inv

/-- Spec R277: the step is total and never stops the machine, and the engine ends the command in
flight in `DONE = 1` (IDLE) or `FAULT = 1`. What a step does with no event pending is the model's choice
(log 2). -/
def Obligations.EveryStepAnswersNext : Prop :=
  ∀ s : State, (∃ t, step s = .next t) ∧
    (∀ w, s.mode = .busy w → ∃ t, engineStep s = .next t ∧
      ((t.mode = .idle ∧ t.done = true) ∨ (t.mode = .faulted ∧ t.done = false)))

/-! ### Faults -/

/-- Spec R233: a command either completes, in IDLE with `DONE = 1`, or leaves exactly the state before
it with the fault registers written, `FAULTCMD` with its own word; so does every word in flight,
decodable or not. Only the hidden table and the model's index of free values are left open, and for
DLOG alone. -/
def Obligations.FaultsArePrecise : Prop :=
  (∀ (i : Instr) (s t : State), exec i s = .next t →
    (t.mode = .idle ∧ t.done = true) ∨
    ∃ (e : FaultCode) (tab : Table) (k : Nat),
      t = { faulted s e.number (encode i) with table := tab, freeCount := k } ∧
      (isDlog i = false → tab = s.table ∧ k = s.freeCount)) ∧
  ∀ (w : Word32) (s t : State), s.mode = .busy w → engineStep s = .next t →
    (t.mode = .idle ∧ t.done = true) ∨
    ∃ (e : FaultCode) (tab : Table) (k : Nat),
      t = { faulted s e.number w with table := tab, freeCount := k } ∧
      ((∀ i, decode w = .ok i → isDlog i = false) → tab = s.table ∧ k = s.freeCount)

/-- Spec R231, R240: without a curve each of the twelve commands faults E_NO_CURVE, whatever its
operands. -/
def Obligations.NoCurveFaultsFirst : Prop :=
  ∀ (i : Instr) (s : State), needsCurve i = true → s.cvalid = false →
    exec i s = .next (faulted s 7 (encode i))

/-- Spec R243: a command raises only the faults its row of the table allows. -/
def Obligations.FaultsFollowTheTable : Prop :=
  ∀ (i : Instr) (s t : State) (e : FaultCode), exec i s = .next t → t.mode = .faulted →
    t.err = e.number →
    (e = .noCurve ∧ needsCurve i = true) ∨ e ∈ ownFaults i

/-- Spec R220: FACK clears the three fault registers, completes, and changes nothing else. -/
def Obligations.FackAcknowledges : Prop :=
  encode .fack = 0x01000000 ∧
  ∀ s : State, exec .fack s = .next
    { s with mode := .idle, err := 0, faultcmd := 0, done := true }

/-- Spec R242, R68: FAULTED is left by FACK or by reset only; any other step leaves every register,
`ERR` and `FAULTCMD` as the faulting command left them. -/
def Obligations.FaultedIsLeftByFackOrResetOnly : Prop :=
  ∀ s t : State, s.mode = .faulted → step s = .next t →
    (∃ r k, t = { s with inputs := s.inputs.tail, reply := r, freeCount := k }) ∨
    (∃ rest, s.inputs = .reset :: rest) ∨ (∃ rest, s.inputs = .write 0 4 0x01000000 :: rest)

/-! ### Frames -/

/-- What a command can change (spec R92, R28, R30, R31, R38): its destination register, `T` for the
three predicates, the curve for the two constructions, the order for three commands, the hidden table
for DLOG; `ARGA`, `ARGB` and what lies at the port never. The completion bits and the fault registers
are the subject of FaultsArePrecise and of the commands' own statements. -/
def Obligations.CommandsChangeOnlyTheirDestination : Prop :=
  ∀ (i : Instr) (s t : State), exec i s = .next t →
    (∀ r : FReg, destF i ≠ some r → t.fregs[r] = s.fregs[r]) ∧
    (∀ r : PReg, destP i ≠ some r → t.pregs[r] = s.pregs[r]) ∧
    (isPredicate i = false → t.t = s.t) ∧
    (isConstruction i = false → t.ca = s.ca ∧ t.cb = s.cb ∧ t.cp = s.cp ∧ t.cvalid = s.cvalid) ∧
    (writesOrder i = false → t.cn = s.cn ∧ t.ovalid = s.ovalid) ∧
    (isDlog i = false → t.table = s.table ∧ t.freeCount = s.freeCount) ∧
    t.arga = s.arga ∧ t.argb = s.argb ∧ t.inputs = s.inputs ∧ t.reply = s.reply

/-- Spec R28: over any step, `T` changes only by reset or by the engine ending a PT.ISZ, PT.EQ or
HASPT. -/
def Obligations.TestFlagChangesOnlyByPredicates : Prop :=
  ∀ s t : State, step s = .next t → t.t ≠ s.t →
    s.inputs.head? = some .reset ∨
    ∃ w i, s.mode = .busy w ∧ decode w = .ok i ∧ isPredicate i = true ∧ t.done = true

/-- Spec R149, R30: over any step, the curve registers change only by reset or by the engine
completing a CRV.INIT or CRV.SECP. -/
def Obligations.CurveChangesOnlyByConstruction : Prop :=
  ∀ s t : State, step s = .next t →
    ¬ (t.ca = s.ca ∧ t.cb = s.cb ∧ t.cp = s.cp ∧ t.cvalid = s.cvalid) →
    s.inputs.head? = some .reset ∨
    ∃ w i, s.mode = .busy w ∧ decode w = .ok i ∧ isConstruction i = true ∧ t.done = true

/-- Spec R38: no command but DLOG reads or writes the table, and DLOG's outcome does not depend on
what the table held. -/
def Obligations.TableIsPrivateToDlog : Prop :=
  ∀ (i : Instr) (s t : State) (tab : Table), exec i s = .next t →
    (isDlog i = false → exec i { s with table := tab } = .next { t with table := tab }) ∧
    (isDlog i = true → s.cvalid = true → exec i { s with table := tab } = .next t)

/-! ### Point commands -/

/-- Spec R121 to R124: in every state PT.ZERO writes `(0, 0)`, PT.SET the pair of two field registers,
PT.GETX and PT.GETY one half of a point register, all unreduced; nothing else but the completion bits
changes. -/
def Obligations.PointValueCommands : Prop :=
  ∀ s : State,
    (∀ d, encode (.ptZero d) = word 0x10 d 0 0 ∧ exec (.ptZero d) s = .next
      { s with pregs := s.pregs.set d ⟨0, 0⟩, done := true, mode := .idle }) ∧
    (∀ d a b, encode (.ptSet d a b) = word 0x11 d a b ∧ exec (.ptSet d a b) s = .next
      { s with pregs := s.pregs.set d ⟨s.fregs[a], s.fregs[b]⟩, done := true, mode := .idle }) ∧
    (∀ d a, encode (.ptGetx d a) = word 0x12 d a 0 ∧ exec (.ptGetx d a) s = .next
      { s with fregs := s.fregs.set d s.pregs[a].x, done := true, mode := .idle }) ∧
    (∀ d a, encode (.ptGety d a) = word 0x13 d a 0 ∧ exec (.ptGety d a) s = .next
      { s with fregs := s.fregs.set d s.pregs[a].y, done := true, mode := .idle })

/-- Spec R125, R126, R120, R25: the predicates look at the stored integers only. -/
def Obligations.PointPredicates : Prop :=
  ∀ s : State,
    (∀ a, encode (.ptIsz a) = word 0x14 0 a 0 ∧ exec (.ptIsz a) s = .next
      { s with t := decide (s.pregs[a].x.toNat = 0 ∧ s.pregs[a].y.toNat = 0), done := true,
               mode := .idle }) ∧
    (∀ a b, encode (.ptEq a b) = word 0x15 0 a b ∧ exec (.ptEq a b) s = .next
      { s with t := decide (s.pregs[a].x = s.pregs[b].x ∧ s.pregs[a].y = s.pregs[b].y), done := true,
               mode := .idle })

/-! ### Curve and order commands -/

/-- Spec R142: a prime 0 or an integer discriminant 0 faults E_CURVE_PARAMS with nothing written;
otherwise the curve is `ARGA`, `ARGB`, `F[rs1]`, valid, with no order. -/
def Obligations.CurveInitConstructsOrFaults : Prop :=
  ∀ (s : State) (a : FReg), encode (.crvInit a) = word 0x20 0 a 0 ∧
    (s.fregs[a] = 0 ∨ 4 * s.arga.toInt ^ 3 + 27 * s.argb.toInt ^ 2 = 0 →
      exec (.crvInit a) s = .next (faulted s 1 (word 0x20 0 a 0))) ∧
    (s.fregs[a] ≠ 0 → 4 * s.arga.toInt ^ 3 + 27 * s.argb.toInt ^ 2 ≠ 0 →
      exec (.crvInit a) s = .next
        { s with ca := s.arga, cb := s.argb, cp := s.fregs[a], cvalid := true, cn := 0,
                 ovalid := false, done := true, mode := .idle })

/-- Spec R143 with the constants of R144 (whose digits the spec marks as general knowledge: log 12). -/
def Obligations.CurveSecpConstructs : Prop :=
  encode .crvSecp = word 0x21 0 0 0 ∧ ∀ s : State, exec .crvSecp s = .next
    { s with
      ca := 0, cb := 7, cp := BitVec.ofNat 256 (2 ^ 256 - 2 ^ 32 - 977), cvalid := true
      cn := 0xFFFFFFFFFFFFFFFFFFFFFFFFFFFFFFFEBAAEDCE6AF48A03BBFD25E8CD0364141, ovalid := true
      done := true, mode := .idle }

/-- Spec R145: CRV.GETP faults E_NO_CURVE without a curve and otherwise copies `CP` and changes nothing
else. -/
def Obligations.PrimeRead : Prop :=
  ∀ (s : State) (d : FReg), encode (.crvGetp d) = word 0x22 d 0 0 ∧
    (s.cvalid = false → exec (.crvGetp d) s = .next (faulted s 7 (word 0x22 d 0 0))) ∧
    (s.cvalid = true → exec (.crvGetp d) s = .next
      { s with fregs := s.fregs.set d s.cp, done := true, mode := .idle })

/-- Spec R147: ORD.SET writes the order unchecked, and over any step a supplied order changes only by
reset or by the engine completing a CRV.INIT, CRV.SECP or ORD.SET. -/
def Obligations.OrderSupply : Prop :=
  (∀ (s : State) (a : FReg), encode (.ordSet a) = word 0x24 0 a 0 ∧
    (s.cvalid = false → exec (.ordSet a) s = .next (faulted s 7 (word 0x24 0 a 0))) ∧
    (s.cvalid = true → exec (.ordSet a) s = .next
      { s with cn := s.fregs[a], ovalid := true, done := true, mode := .idle })) ∧
  ∀ s t : State, step s = .next t → ¬ (t.cn = s.cn ∧ t.ovalid = s.ovalid) →
    s.inputs.head? = some .reset ∨
    ∃ w i, s.mode = .busy w ∧ decode w = .ok i ∧ writesOrder i = true ∧ t.done = true

/-- Spec R146, R140, R141: the supplied order, else one more than the number of affine solutions, else
E_RANGE. -/
def Obligations.OrderGetReadsOrCounts : Prop :=
  ∀ (s : State) (d : FReg), encode (.ordGet d) = word 0x23 d 0 0 ∧
    (s.cvalid = false → exec (.ordGet d) s = .next (faulted s 7 (word 0x23 d 0 0))) ∧
    (s.cvalid = true → s.ovalid = true → exec (.ordGet d) s = .next
      { s with fregs := s.fregs.set d s.cn, done := true, mode := .idle }) ∧
    (s.cvalid = true → s.ovalid = false → 1 + (affineSolutions s.curve).card < 2 ^ 256 → exec (.ordGet d) s = .next
      { s with fregs := s.fregs.set d (BitVec.ofNat 256 (1 + (affineSolutions s.curve).card)),
               done := true, mode := .idle }) ∧
    (s.cvalid = true → s.ovalid = false → 2 ^ 256 ≤ 1 + (affineSolutions s.curve).card →
      exec (.ordGet d) s = .next (faulted s 8 (word 0x23 d 0 0)))

/-! ### Field commands -/

/-- Spec R160: `modexp` is the exact power reduced, for every integer base, exponent and modulus
`p >= 1`, `0^0` being 1. -/
def Obligations.ModexpIsTheReducedPower : Prop :=
  ∀ (z : Int) (e p : Nat), 1 ≤ p → (modexp z e p : Int) = z ^ e % (p : Int)

/-- Spec R163: FMUL faults E_NO_CURVE without a curve and otherwise writes the exact product modulo
`p`. -/
def Obligations.FieldProduct : Prop :=
  ∀ (s : State) (d a b : FReg), encode (.fmul d a b) = word 0x30 d a b ∧
    (s.cvalid = false → exec (.fmul d a b) s = .next (faulted s 7 (word 0x30 d a b))) ∧
    (s.cvalid = true → s.cp ≠ 0 →
      ∃ r : Word256, r.toNat = s.fregs[a].toNat * s.fregs[b].toNat % s.cp.toNat ∧
        exec (.fmul d a b) s = .next
          { s with fregs := s.fregs.set d r, done := true, mode := .idle })

/-- Spec R164, R161: a multiple of `p` faults E_NOT_INVERTIBLE, anything else gives `z^(p-2) mod p`. -/
def Obligations.FieldInverse : Prop :=
  ∀ (s : State) (d a : FReg), encode (.finv d a) = word 0x31 d a 0 ∧
    (s.cvalid = false → exec (.finv d a) s = .next (faulted s 7 (word 0x31 d a 0))) ∧
    (s.cvalid = true → s.cp ≠ 0 → s.fregs[a].toNat % s.cp.toNat = 0 →
      exec (.finv d a) s = .next (faulted s 3 (word 0x31 d a 0))) ∧
    (s.cvalid = true → s.cp ≠ 0 → s.fregs[a].toNat % s.cp.toNat ≠ 0 →
      ∃ r : Word256, r.toNat = s.fregs[a].toNat ^ (s.cp.toNat - 2) % s.cp.toNat ∧
        exec (.finv d a) s = .next
          { s with fregs := s.fregs.set d r, done := true, mode := .idle })

/-- Spec R161: for a prime `p` the result is the unique `r` in `[1, p)` with `(z * r) mod p = 1`. -/
def Obligations.FieldInverseIsTheInverse : Prop :=
  ∀ (s : State) (d a : FReg), s.cvalid = true → s.cp.toNat.Prime →
    s.fregs[a].toNat % s.cp.toNat ≠ 0 →
    ∃ r : Word256, exec (.finv d a) s = .next
        { s with fregs := s.fregs.set d r, done := true, mode := .idle } ∧
      1 ≤ r.toNat ∧ r.toNat < s.cp.toNat ∧ s.fregs[a].toNat * r.toNat % s.cp.toNat = 1 ∧
      ∀ r' : Nat, r' < s.cp.toNat → s.fregs[a].toNat * r' % s.cp.toNat = 1 → r' = r.toNat

/-- Spec R165, R162: a modulus not 3 modulo 4 faults whatever the operand, else
`z^((p+1)/4) mod p`. -/
def Obligations.FieldSquareRoot : Prop :=
  ∀ (s : State) (d a : FReg), encode (.fsqrt d a) = word 0x32 d a 0 ∧
    (s.cvalid = false → exec (.fsqrt d a) s = .next (faulted s 7 (word 0x32 d a 0))) ∧
    (s.cvalid = true → s.cp.toNat % 4 ≠ 3 →
      exec (.fsqrt d a) s = .next (faulted s 4 (word 0x32 d a 0))) ∧
    (s.cvalid = true → s.cp.toNat % 4 = 3 →
      ∃ r : Word256, r.toNat = s.fregs[a].toNat ^ ((s.cp.toNat + 1) / 4) % s.cp.toNat ∧
        exec (.fsqrt d a) s = .next
          { s with fregs := s.fregs.set d r, done := true, mode := .idle })

/-- Spec R162: for a prime `p` with `p mod 4 = 3` the result squares to the operand when the operand is
a square modulo `p`, and to its negative when it is not. -/
def Obligations.SquareRootSquaresBack : Prop :=
  ∀ (s : State) (d a : FReg), s.cvalid = true → s.cp.toNat.Prime → s.cp.toNat % 4 = 3 →
    ∃ r : Word256, exec (.fsqrt d a) s = .next
        { s with fregs := s.fregs.set d r, done := true, mode := .idle } ∧
      ((∃ y : Nat, y * y % s.cp.toNat = s.fregs[a].toNat % s.cp.toNat) →
        r.toNat * r.toNat % s.cp.toNat = s.fregs[a].toNat % s.cp.toNat) ∧
      ((¬ ∃ y : Nat, y * y % s.cp.toNat = s.fregs[a].toNat % s.cp.toNat) →
        (r.toNat * r.toNat + s.fregs[a].toNat) % s.cp.toNat = 0)

/-- Spec R202: `ceil_sqrt(n)` is the least `m` with `m * m >= n`; below `2^256` it is at most
`2^128`. -/
def Obligations.CeilSqrtIsLeast : Prop :=
  ∀ n : Nat, n ≤ ceilSqrt n * ceilSqrt n ∧ (∀ m, n ≤ m * m → ceilSqrt n ≤ m) ∧
    (n < 2 ^ 256 → ceilSqrt n ≤ 2 ^ 128)

/-! ### Group-law commands -/

/-- Spec R185, R180: HASPT answers whether the point is the identity or satisfies the congruence; its
only fault is E_NO_CURVE. -/
def Obligations.MembershipTest : Prop :=
  ∀ (s : State) (a : PReg), encode (.haspt a) = word 0x28 0 a 0 ∧
    (s.cvalid = false → exec (.haspt a) s = .next (faulted s 7 (word 0x28 0 a 0))) ∧
    (s.cvalid = true → s.cp ≠ 0 →
      ∃ b : Bool, exec (.haspt a) s = .next { s with t := b, done := true, mode := .idle } ∧
        (b = true ↔ (s.pregs[a].x = 0 ∧ s.pregs[a].y = 0) ∨
          (s.cp.toNat : Int) ∣ (s.pregs[a].y.toNat : Int) ^ 2 -
            ((s.pregs[a].x.toNat : Int) ^ 3 + s.ca.toInt * s.pregs[a].x.toNat + s.cb.toInt)))

/-- Spec R186, R181: `x` is copied, `y` becomes 0 when it is a multiple of `p`, else
`p - (y mod p)`. -/
def Obligations.PointNegation : Prop :=
  ∀ (s : State) (d a : PReg), encode (.pneg d a) = word 0x29 d a 0 ∧
    (s.cvalid = false → exec (.pneg d a) s = .next (faulted s 7 (word 0x29 d a 0))) ∧
    (s.cvalid = true → s.cp ≠ 0 →
      ∃ y : Word256, exec (.pneg d a) s = .next
          { s with pregs := s.pregs.set d ⟨s.pregs[a].x, y⟩, done := true, mode := .idle } ∧
        (s.pregs[a].y.toNat % s.cp.toNat = 0 → y.toNat = 0) ∧
        (s.pregs[a].y.toNat % s.cp.toNat ≠ 0 →
          y.toNat = s.cp.toNat - s.pregs[a].y.toNat % s.cp.toNat))

/-- Spec R188, R183: the identity doubles to the identity; a point with `2y` a multiple of `p` faults
E_NOT_INVERTIBLE; every other point gives the tangent formula. -/
def Obligations.PointDoubling : Prop :=
  ∀ (s : State) (d a : PReg), encode (.pdbl d a) = word 0x2B d a 0 ∧
    (s.cvalid = false → exec (.pdbl d a) s = .next (faulted s 7 (word 0x2B d a 0))) ∧
    (s.cvalid = true → s.cp ≠ 0 →
    let x : Int := s.pregs[a].x.toNat
    let y : Int := s.pregs[a].y.toNat
    let p : Int := s.cp.toNat
    (x = 0 ∧ y = 0 → exec (.pdbl d a) s = .next
      { s with pregs := s.pregs.set d ⟨0, 0⟩, done := true, mode := .idle }) ∧
    (¬ (x = 0 ∧ y = 0) → p ∣ 2 * y →
      exec (.pdbl d a) s = .next (faulted s 3 (word 0x2B d a 0))) ∧
    (¬ (x = 0 ∧ y = 0) → ¬ p ∣ 2 * y → exec (.pdbl d a) s = .next
      { s with pregs := s.pregs.set d (thirdPoint p
                 ((3 * x * x + s.ca.toInt) * ((2 * y) ^ (s.cp.toNat - 2) % p) % p) x y x),
               done := true, mode := .idle }))

/-- Spec R187, R182: the five cases of the group law in order of precedence; case 3 as PDBL does it,
case 5 the chord formula or E_NOT_INVERTIBLE. -/
def Obligations.PointAddition : Prop :=
  ∀ (s : State) (d a b : PReg), encode (.padd d a b) = word 0x2A d a b ∧
    (s.cvalid = false → exec (.padd d a b) s = .next (faulted s 7 (word 0x2A d a b))) ∧
    (s.cvalid = true → s.cp ≠ 0 →
    let Q1 := s.pregs[a]
    let Q2 := s.pregs[b]
    let x1 : Int := Q1.x.toNat
    let y1 : Int := Q1.y.toNat
    let x2 : Int := Q2.x.toNat
    let y2 : Int := Q2.y.toNat
    let p : Int := s.cp.toNat
    (Q2 = ⟨0, 0⟩ → exec (.padd d a b) s = .next
      { s with pregs := s.pregs.set d Q1, done := true, mode := .idle }) ∧
    (Q2 ≠ ⟨0, 0⟩ → Q1 = ⟨0, 0⟩ → exec (.padd d a b) s = .next
      { s with pregs := s.pregs.set d Q2, done := true, mode := .idle }) ∧
    (Q2 ≠ ⟨0, 0⟩ → Q1 = Q2 → p ∣ 2 * y1 →
      exec (.padd d a b) s = .next (faulted s 3 (word 0x2A d a b))) ∧
    (Q2 ≠ ⟨0, 0⟩ → Q1 = Q2 → ¬ p ∣ 2 * y1 → exec (.padd d a b) s = .next
      { s with pregs := s.pregs.set d (thirdPoint p
                 ((3 * x1 * x1 + s.ca.toInt) * ((2 * y1) ^ (s.cp.toNat - 2) % p) % p) x1 y1 x1),
               done := true, mode := .idle }) ∧
    (Q2 ≠ ⟨0, 0⟩ → Q1 ≠ ⟨0, 0⟩ → x1 = x2 → y1 ≠ y2 → exec (.padd d a b) s = .next
      { s with pregs := s.pregs.set d ⟨0, 0⟩, done := true, mode := .idle }) ∧
    (Q2 ≠ ⟨0, 0⟩ → Q1 ≠ ⟨0, 0⟩ → x1 ≠ x2 → p ∣ x1 - x2 →
      exec (.padd d a b) s = .next (faulted s 3 (word 0x2A d a b))) ∧
    (Q2 ≠ ⟨0, 0⟩ → Q1 ≠ ⟨0, 0⟩ → x1 ≠ x2 → ¬ p ∣ x1 - x2 → exec (.padd d a b) s = .next
      { s with pregs := s.pregs.set d (thirdPoint p
                 ((y1 - y2) * ((x1 - x2) ^ (s.cp.toNat - 2) % p) % p) x1 y1 x2),
               done := true, mode := .idle }))

/-- Spec R189, R184: scalar 0 faults E_INVALID_INPUT; for every other scalar the pseudocode loop from
`acc = (0, 0)`, `power = P[rs1]`, `k = n` ends, and its end is the command's: its value written, or its
fault raised. -/
def Obligations.ScalarMultiplication : Prop :=
  ∀ (s : State) (d a : PReg) (b : FReg), encode (.smul d a b) = word 0x2C d a b ∧
    (s.cvalid = false → exec (.smul d a b) s = .next (faulted s 7 (word 0x2C d a b))) ∧
    (s.cvalid = true → s.fregs[b] = 0 → exec (.smul d a b) s = .next (faulted s 2 (word 0x2C d a b))) ∧
    (s.cvalid = true → s.fregs[b] ≠ 0 →
      (∃ r, ScalarWhile s.curve ⟨0, 0⟩ s.pregs[a] s.fregs[b].toNat r) ∧
      (∀ R, ScalarWhile s.curve ⟨0, 0⟩ s.pregs[a] s.fregs[b].toNat (.ok R) →
        exec (.smul d a b) s = .next
          { s with pregs := s.pregs.set d R, done := true, mode := .idle }) ∧
      (∀ e, ScalarWhile s.curve ⟨0, 0⟩ s.pregs[a] s.fregs[b].toNat (.error e) →
        exec (.smul d a b) s = .next (faulted s e.number (word 0x2C d a b))))

/-- Spec R189: on the identity every positive scalar completes, and gives the identity. -/
def Obligations.ScalarMultipleOfIdentity : Prop :=
  ∀ (s : State) (d a : PReg) (b : FReg), s.cvalid = true → s.fregs[b] ≠ 0 → s.pregs[a] = ⟨0, 0⟩ →
    exec (.smul d a b) s = .next
      { s with pregs := s.pregs.set d ⟨0, 0⟩, done := true, mode := .idle }

/-- Spec R190: on a supported curve, negation, addition and doubling of valid points give valid
points, and doubling a point is adding it to itself, where they do not fault. -/
def Obligations.GroupLawKeepsValidity : Prop :=
  ∀ (c : Curve) (Q1 Q2 : Point), Supported c → Valid c Q1 → Valid c Q2 →
    Valid c (negatePoint c Q1) ∧ (∀ R, add c Q1 Q2 = .ok R → Valid c R) ∧
      (∀ R, double c Q1 = .ok R → Valid c R) ∧ double c Q1 = add c Q1 Q1

/-- Spec R190: on a supported curve addition of valid points commutes, faults included. -/
def Obligations.AdditionCommutes : Prop :=
  ∀ (c : Curve) (Q1 Q2 : Point), Supported c → Valid c Q1 → Valid c Q2 → add c Q1 Q2 = add c Q2 Q1

/-- Spec R190: on a supported curve a valid point plus its negative is the identity when `y != 0`, and
faults E_NOT_INVERTIBLE when `y = 0` and the point is not the identity. -/
def Obligations.PointPlusItsNegative : Prop :=
  ∀ (c : Curve) (Q : Point), Supported c → Valid c Q →
    (Q.y ≠ 0 → add c Q (negatePoint c Q) = .ok ⟨0, 0⟩) ∧
    (Q.y = 0 → Q.x ≠ 0 → add c Q (negatePoint c Q) = .error .notInvertible)

/-- Spec R190: on a supported curve `scalarMultiply(Q, n)` is the `n`-fold sum of the valid point `Q`
whenever neither raises. -/
def Obligations.ScalarMultiplyIsRepeatedAddition : Prop :=
  ∀ (c : Curve) (Q R R' : Point) (n : Nat), Supported c → Valid c Q →
    scalarMultiply c Q (n + 1) = .ok R → repeatedAdd c Q n = .ok R' → R = R'

/-! ### The solver -/

/-- Spec R203: after the baby steps the table has the form of R38, and a key's index is the smallest
`j` whose baby step is that key. -/
def Obligations.TableHoldsSmallestIndices : Prop :=
  ∀ (c : Curve) (G : Point) (count : Nat) (tab : Table), babySteps c G count 1 [] = .ok tab →
    TableOk count tab ∧
    ∀ (K : Point) (j : Nat), tableLookup tab K = some j ↔
      1 ≤ j ∧ j ≤ count ∧ scalarMultiply c G j = .ok K ∧
        ∀ j', 1 ≤ j' → j' < j → scalarMultiply c G j' ≠ .ok K

/-- Spec R200, R201: when the search is entered, every giant step before `i` misses and step `i` hits
baby step `j`, DLOG completes with `(i * m + j) mod n` in its destination and nothing else changed (the
hidden table and the model's index of free values apart). -/
def Obligations.DlogReturnsTheFirstHit : Prop :=
  ∀ (s : State) (d : FReg) (a b : PReg) (n i j : Nat),
    SearchEntered s s.pregs[a] s.pregs[b] n →
    (∀ i', 1 ≤ i' → i' < i → MissAt s.curve s.pregs[a] s.pregs[b] n i') →
    HitAt s.curve s.pregs[a] s.pregs[b] n i j →
    encode (.dlog d a b) = word 0x40 d a b ∧
    ∃ tab k, exec (.dlog d a b) s = .next
      { s with
        fregs := s.fregs.set d (BitVec.ofNat 256 ((i * ceilSqrt n + j) % n))
        table := tab, freeCount := k, done := true, mode := .idle }

/-- Spec R200, R238: when the search is entered and all `m` giant steps miss, `m >= 1`, DLOG faults
E_SEARCH_EXHAUSTED. -/
def Obligations.DlogReportsExhaustion : Prop :=
  ∀ (s : State) (d : FReg) (a b : PReg) (n : Nat),
    SearchEntered s s.pregs[a] s.pregs[b] n → 1 ≤ n →
    (∀ i, 1 ≤ i → i ≤ ceilSqrt n → MissAt s.curve s.pregs[a] s.pregs[b] n i) →
    ∃ tab k, exec (.dlog d a b) s = .next
      { faulted s 5 (word 0x40 d a b) with table := tab, freeCount := k }

/-- Spec R235, R240: a point off the curve faults E_INVALID_INPUT whatever else holds, and so does a
supplied order of 0. -/
def Obligations.DlogChecksItsInputsFirst : Prop :=
  ∀ (s : State) (d : FReg) (a b : PReg), s.cvalid = true →
    (hasPoint s.curve s.pregs[a] = false ∨ hasPoint s.curve s.pregs[b] = false ∨
      (s.ovalid = true ∧ s.cn = 0)) →
    ∃ tab k, exec (.dlog d a b) s = .next
      { faulted s 2 (word 0x40 d a b) with table := tab, freeCount := k }

/-- Spec R200 case (c): with the identity as base and target and an order `n >= 1`, supplied or counted,
DLOG completes with `(m + 1) mod n`, for every `MEMORY_LIMIT`. What the hidden table holds then is open
(log 7). -/
def Obligations.DlogOfIdentityBase : Prop :=
  ∀ (s : State) (d : FReg) (a b : PReg) (n : Nat), s.cvalid = true →
    groupOrder s.curve s.suppliedOrder = .ok n → 1 ≤ n →
    s.pregs[a] = ⟨0, 0⟩ → s.pregs[b] = ⟨0, 0⟩ →
    ∃ tab k, exec (.dlog d a b) s = .next
      { s with
        fregs := s.fregs.set d (BitVec.ofNat 256 ((ceilSqrt n + 1) % n))
        table := tab, freeCount := k, done := true, mode := .idle }

/-- Spec R201, R200: whatever DLOG returns is in `[0, n)` and comes from a hit of a baby step. -/
def Obligations.DlogResultComesFromAHit : Prop :=
  ∀ (s t : State) (d : FReg) (a b : PReg), exec (.dlog d a b) s = .next t → t.done = true →
    ∃ n i j, SearchEntered s s.pregs[a] s.pregs[b] n ∧
      HitAt s.curve s.pregs[a] s.pregs[b] n i j ∧
      t.fregs[d].toNat = (i * ceilSqrt n + j) % n ∧ t.fregs[d].toNat < n

/-- Spec R204: on a supported curve with valid operands, if the order `n` used is a multiple of the
order of `G` and DLOG returns `k`, then `k·G = Pt` in the group, `k = 0` and a `G` of any order included;
and what SMUL of `G` by `k` returns, where it does not fault, is `Pt`. -/
def Obligations.DlogIsSound : Prop :=
  ∀ (c : Curve) (supplied : Option Nat) (limit : Nat) (tab : Table) (G Pt : Point) (n k : Nat),
    Supported c → Valid c G → Valid c Pt → groupOrder c supplied = .ok n →
    groupMultiple c G n = ⟨0, 0⟩ →
    discreteLogarithm c supplied limit tab G Pt = .ok k →
    groupMultiple c G k = Pt ∧ (k = 0 → Pt = ⟨0, 0⟩) ∧
      ∀ R, k ≠ 0 → scalarMultiply c G k = .ok R → R = Pt

/-- Spec R205, the part no fault cuts short: on a supported curve with valid operands, if `n` is a
multiple of the order of `G`, `Pt` is a multiple of `G` in the group and the limit is at least `m`, the
search is never exhausted. It may fault E_NOT_INVERTIBLE where a doubling chain meets a point of order
two (spec R184). -/
def Obligations.DlogNeverMissesAMultiple : Prop :=
  ∀ (c : Curve) (supplied : Option Nat) (limit : Nat) (tab : Table) (G Pt : Point) (n k' : Nat),
    Supported c → Valid c G → groupOrder c supplied = .ok n → groupMultiple c G n = ⟨0, 0⟩ →
    groupMultiple c G k' = Pt → ceilSqrt n ≤ limit →
    discreteLogarithm c supplied limit tab G Pt ≠ .error .searchExhausted
end

