-- ==== Sys2Proof/Laws/State.lean ====
section
/-! SUPPORT. One lemma per field per named update of State: true by `rfl`, used by `simp`, so that no
later proof unfolds a record update. -/

namespace Sys2Proof.Machine

/-! ### writeF -/

@[simp] theorem State.writeF_fregs (s : State) (i : FReg) (v : Word256) :
    (s.writeF i v).fregs = s.fregs.set i v := rfl
@[simp] theorem State.writeF_pregs (s : State) (i : FReg) (v : Word256) :
    (s.writeF i v).pregs = s.pregs := rfl
@[simp] theorem State.writeF_t (s : State) (i : FReg) (v : Word256) : (s.writeF i v).t = s.t := rfl
@[simp] theorem State.writeF_done (s : State) (i : FReg) (v : Word256) :
    (s.writeF i v).done = s.done := rfl
@[simp] theorem State.writeF_mode (s : State) (i : FReg) (v : Word256) :
    (s.writeF i v).mode = s.mode := rfl
@[simp] theorem State.writeF_err (s : State) (i : FReg) (v : Word256) :
    (s.writeF i v).err = s.err := rfl
@[simp] theorem State.writeF_faultcmd (s : State) (i : FReg) (v : Word256) :
    (s.writeF i v).faultcmd = s.faultcmd := rfl
@[simp] theorem State.writeF_arga (s : State) (i : FReg) (v : Word256) :
    (s.writeF i v).arga = s.arga := rfl
@[simp] theorem State.writeF_argb (s : State) (i : FReg) (v : Word256) :
    (s.writeF i v).argb = s.argb := rfl
@[simp] theorem State.writeF_ca (s : State) (i : FReg) (v : Word256) :
    (s.writeF i v).ca = s.ca := rfl
@[simp] theorem State.writeF_cb (s : State) (i : FReg) (v : Word256) :
    (s.writeF i v).cb = s.cb := rfl
@[simp] theorem State.writeF_cp (s : State) (i : FReg) (v : Word256) :
    (s.writeF i v).cp = s.cp := rfl
@[simp] theorem State.writeF_cvalid (s : State) (i : FReg) (v : Word256) :
    (s.writeF i v).cvalid = s.cvalid := rfl
@[simp] theorem State.writeF_cn (s : State) (i : FReg) (v : Word256) :
    (s.writeF i v).cn = s.cn := rfl
@[simp] theorem State.writeF_ovalid (s : State) (i : FReg) (v : Word256) :
    (s.writeF i v).ovalid = s.ovalid := rfl
@[simp] theorem State.writeF_table (s : State) (i : FReg) (v : Word256) :
    (s.writeF i v).table = s.table := rfl
@[simp] theorem State.writeF_inputs (s : State) (i : FReg) (v : Word256) :
    (s.writeF i v).inputs = s.inputs := rfl
@[simp] theorem State.writeF_reply (s : State) (i : FReg) (v : Word256) :
    (s.writeF i v).reply = s.reply := rfl
@[simp] theorem State.writeF_freeCount (s : State) (i : FReg) (v : Word256) :
    (s.writeF i v).freeCount = s.freeCount := rfl

/-! ### writeP -/

@[simp] theorem State.writeP_fregs (s : State) (i : PReg) (Q : Point) :
    (s.writeP i Q).fregs = s.fregs := rfl
@[simp] theorem State.writeP_pregs (s : State) (i : PReg) (Q : Point) :
    (s.writeP i Q).pregs = s.pregs.set i Q := rfl
@[simp] theorem State.writeP_t (s : State) (i : PReg) (Q : Point) : (s.writeP i Q).t = s.t := rfl
@[simp] theorem State.writeP_done (s : State) (i : PReg) (Q : Point) :
    (s.writeP i Q).done = s.done := rfl
@[simp] theorem State.writeP_mode (s : State) (i : PReg) (Q : Point) :
    (s.writeP i Q).mode = s.mode := rfl
@[simp] theorem State.writeP_err (s : State) (i : PReg) (Q : Point) :
    (s.writeP i Q).err = s.err := rfl
@[simp] theorem State.writeP_faultcmd (s : State) (i : PReg) (Q : Point) :
    (s.writeP i Q).faultcmd = s.faultcmd := rfl
@[simp] theorem State.writeP_arga (s : State) (i : PReg) (Q : Point) :
    (s.writeP i Q).arga = s.arga := rfl
@[simp] theorem State.writeP_argb (s : State) (i : PReg) (Q : Point) :
    (s.writeP i Q).argb = s.argb := rfl
@[simp] theorem State.writeP_ca (s : State) (i : PReg) (Q : Point) : (s.writeP i Q).ca = s.ca := rfl
@[simp] theorem State.writeP_cb (s : State) (i : PReg) (Q : Point) : (s.writeP i Q).cb = s.cb := rfl
@[simp] theorem State.writeP_cp (s : State) (i : PReg) (Q : Point) : (s.writeP i Q).cp = s.cp := rfl
@[simp] theorem State.writeP_cvalid (s : State) (i : PReg) (Q : Point) :
    (s.writeP i Q).cvalid = s.cvalid := rfl
@[simp] theorem State.writeP_cn (s : State) (i : PReg) (Q : Point) : (s.writeP i Q).cn = s.cn := rfl
@[simp] theorem State.writeP_ovalid (s : State) (i : PReg) (Q : Point) :
    (s.writeP i Q).ovalid = s.ovalid := rfl
@[simp] theorem State.writeP_table (s : State) (i : PReg) (Q : Point) :
    (s.writeP i Q).table = s.table := rfl
@[simp] theorem State.writeP_inputs (s : State) (i : PReg) (Q : Point) :
    (s.writeP i Q).inputs = s.inputs := rfl
@[simp] theorem State.writeP_reply (s : State) (i : PReg) (Q : Point) :
    (s.writeP i Q).reply = s.reply := rfl
@[simp] theorem State.writeP_freeCount (s : State) (i : PReg) (Q : Point) :
    (s.writeP i Q).freeCount = s.freeCount := rfl

/-! ### setT -/

@[simp] theorem State.setT_fregs (s : State) (b : Bool) : (s.setT b).fregs = s.fregs := rfl
@[simp] theorem State.setT_pregs (s : State) (b : Bool) : (s.setT b).pregs = s.pregs := rfl
@[simp] theorem State.setT_t (s : State) (b : Bool) : (s.setT b).t = b := rfl
@[simp] theorem State.setT_done (s : State) (b : Bool) : (s.setT b).done = s.done := rfl
@[simp] theorem State.setT_mode (s : State) (b : Bool) : (s.setT b).mode = s.mode := rfl
@[simp] theorem State.setT_err (s : State) (b : Bool) : (s.setT b).err = s.err := rfl
@[simp] theorem State.setT_faultcmd (s : State) (b : Bool) : (s.setT b).faultcmd = s.faultcmd := rfl
@[simp] theorem State.setT_arga (s : State) (b : Bool) : (s.setT b).arga = s.arga := rfl
@[simp] theorem State.setT_argb (s : State) (b : Bool) : (s.setT b).argb = s.argb := rfl
@[simp] theorem State.setT_ca (s : State) (b : Bool) : (s.setT b).ca = s.ca := rfl
@[simp] theorem State.setT_cb (s : State) (b : Bool) : (s.setT b).cb = s.cb := rfl
@[simp] theorem State.setT_cp (s : State) (b : Bool) : (s.setT b).cp = s.cp := rfl
@[simp] theorem State.setT_cvalid (s : State) (b : Bool) : (s.setT b).cvalid = s.cvalid := rfl
@[simp] theorem State.setT_cn (s : State) (b : Bool) : (s.setT b).cn = s.cn := rfl
@[simp] theorem State.setT_ovalid (s : State) (b : Bool) : (s.setT b).ovalid = s.ovalid := rfl
@[simp] theorem State.setT_table (s : State) (b : Bool) : (s.setT b).table = s.table := rfl
@[simp] theorem State.setT_inputs (s : State) (b : Bool) : (s.setT b).inputs = s.inputs := rfl
@[simp] theorem State.setT_reply (s : State) (b : Bool) : (s.setT b).reply = s.reply := rfl
@[simp] theorem State.setT_freeCount (s : State) (b : Bool) :
    (s.setT b).freeCount = s.freeCount := rfl

/-! ### complete -/

@[simp] theorem State.complete_fregs (s : State) : (s.complete).fregs = s.fregs := rfl
@[simp] theorem State.complete_pregs (s : State) : (s.complete).pregs = s.pregs := rfl
@[simp] theorem State.complete_t (s : State) : (s.complete).t = s.t := rfl
@[simp] theorem State.complete_done (s : State) : (s.complete).done = true := rfl
@[simp] theorem State.complete_mode (s : State) : (s.complete).mode = .idle := rfl
@[simp] theorem State.complete_err (s : State) : (s.complete).err = s.err := rfl
@[simp] theorem State.complete_faultcmd (s : State) : (s.complete).faultcmd = s.faultcmd := rfl
@[simp] theorem State.complete_arga (s : State) : (s.complete).arga = s.arga := rfl
@[simp] theorem State.complete_argb (s : State) : (s.complete).argb = s.argb := rfl
@[simp] theorem State.complete_ca (s : State) : (s.complete).ca = s.ca := rfl
@[simp] theorem State.complete_cb (s : State) : (s.complete).cb = s.cb := rfl
@[simp] theorem State.complete_cp (s : State) : (s.complete).cp = s.cp := rfl
@[simp] theorem State.complete_cvalid (s : State) : (s.complete).cvalid = s.cvalid := rfl
@[simp] theorem State.complete_cn (s : State) : (s.complete).cn = s.cn := rfl
@[simp] theorem State.complete_ovalid (s : State) : (s.complete).ovalid = s.ovalid := rfl
@[simp] theorem State.complete_table (s : State) : (s.complete).table = s.table := rfl
@[simp] theorem State.complete_inputs (s : State) : (s.complete).inputs = s.inputs := rfl
@[simp] theorem State.complete_reply (s : State) : (s.complete).reply = s.reply := rfl
@[simp] theorem State.complete_freeCount (s : State) : (s.complete).freeCount = s.freeCount := rfl

/-! ### raise -/

@[simp] theorem State.raise_fregs (s : State) (e : FaultCode) (w : Word32) :
    (s.raise e w).fregs = s.fregs := rfl
@[simp] theorem State.raise_pregs (s : State) (e : FaultCode) (w : Word32) :
    (s.raise e w).pregs = s.pregs := rfl
@[simp] theorem State.raise_t (s : State) (e : FaultCode) (w : Word32) :
    (s.raise e w).t = s.t := rfl
@[simp] theorem State.raise_done (s : State) (e : FaultCode) (w : Word32) :
    (s.raise e w).done = false := rfl
@[simp] theorem State.raise_mode (s : State) (e : FaultCode) (w : Word32) :
    (s.raise e w).mode = .faulted := rfl
@[simp] theorem State.raise_err (s : State) (e : FaultCode) (w : Word32) :
    (s.raise e w).err = e.number := rfl
@[simp] theorem State.raise_faultcmd (s : State) (e : FaultCode) (w : Word32) :
    (s.raise e w).faultcmd = w := rfl
@[simp] theorem State.raise_arga (s : State) (e : FaultCode) (w : Word32) :
    (s.raise e w).arga = s.arga := rfl
@[simp] theorem State.raise_argb (s : State) (e : FaultCode) (w : Word32) :
    (s.raise e w).argb = s.argb := rfl
@[simp] theorem State.raise_ca (s : State) (e : FaultCode) (w : Word32) :
    (s.raise e w).ca = s.ca := rfl
@[simp] theorem State.raise_cb (s : State) (e : FaultCode) (w : Word32) :
    (s.raise e w).cb = s.cb := rfl
@[simp] theorem State.raise_cp (s : State) (e : FaultCode) (w : Word32) :
    (s.raise e w).cp = s.cp := rfl
@[simp] theorem State.raise_cvalid (s : State) (e : FaultCode) (w : Word32) :
    (s.raise e w).cvalid = s.cvalid := rfl
@[simp] theorem State.raise_cn (s : State) (e : FaultCode) (w : Word32) :
    (s.raise e w).cn = s.cn := rfl
@[simp] theorem State.raise_ovalid (s : State) (e : FaultCode) (w : Word32) :
    (s.raise e w).ovalid = s.ovalid := rfl
@[simp] theorem State.raise_table (s : State) (e : FaultCode) (w : Word32) :
    (s.raise e w).table = s.table := rfl
@[simp] theorem State.raise_inputs (s : State) (e : FaultCode) (w : Word32) :
    (s.raise e w).inputs = s.inputs := rfl
@[simp] theorem State.raise_reply (s : State) (e : FaultCode) (w : Word32) :
    (s.raise e w).reply = s.reply := rfl
@[simp] theorem State.raise_freeCount (s : State) (e : FaultCode) (w : Word32) :
    (s.raise e w).freeCount = s.freeCount := rfl

/-! ### acknowledge -/

@[simp] theorem State.acknowledge_fregs (s : State) : (s.acknowledge).fregs = s.fregs := rfl
@[simp] theorem State.acknowledge_pregs (s : State) : (s.acknowledge).pregs = s.pregs := rfl
@[simp] theorem State.acknowledge_t (s : State) : (s.acknowledge).t = s.t := rfl
@[simp] theorem State.acknowledge_done (s : State) : (s.acknowledge).done = s.done := rfl
@[simp] theorem State.acknowledge_mode (s : State) : (s.acknowledge).mode = .idle := rfl
@[simp] theorem State.acknowledge_err (s : State) : (s.acknowledge).err = 0 := rfl
@[simp] theorem State.acknowledge_faultcmd (s : State) : (s.acknowledge).faultcmd = 0 := rfl
@[simp] theorem State.acknowledge_arga (s : State) : (s.acknowledge).arga = s.arga := rfl
@[simp] theorem State.acknowledge_argb (s : State) : (s.acknowledge).argb = s.argb := rfl
@[simp] theorem State.acknowledge_ca (s : State) : (s.acknowledge).ca = s.ca := rfl
@[simp] theorem State.acknowledge_cb (s : State) : (s.acknowledge).cb = s.cb := rfl
@[simp] theorem State.acknowledge_cp (s : State) : (s.acknowledge).cp = s.cp := rfl
@[simp] theorem State.acknowledge_cvalid (s : State) : (s.acknowledge).cvalid = s.cvalid := rfl
@[simp] theorem State.acknowledge_cn (s : State) : (s.acknowledge).cn = s.cn := rfl
@[simp] theorem State.acknowledge_ovalid (s : State) : (s.acknowledge).ovalid = s.ovalid := rfl
@[simp] theorem State.acknowledge_table (s : State) : (s.acknowledge).table = s.table := rfl
@[simp] theorem State.acknowledge_inputs (s : State) : (s.acknowledge).inputs = s.inputs := rfl
@[simp] theorem State.acknowledge_reply (s : State) : (s.acknowledge).reply = s.reply := rfl
@[simp] theorem State.acknowledge_freeCount (s : State) :
    (s.acknowledge).freeCount = s.freeCount := rfl

/-! ### setCurve -/

@[simp] theorem State.setCurve_fregs (s : State) (a b : Word32) (p : Word256) :
    (s.setCurve a b p).fregs = s.fregs := rfl
@[simp] theorem State.setCurve_pregs (s : State) (a b : Word32) (p : Word256) :
    (s.setCurve a b p).pregs = s.pregs := rfl
@[simp] theorem State.setCurve_t (s : State) (a b : Word32) (p : Word256) :
    (s.setCurve a b p).t = s.t := rfl
@[simp] theorem State.setCurve_done (s : State) (a b : Word32) (p : Word256) :
    (s.setCurve a b p).done = s.done := rfl
@[simp] theorem State.setCurve_mode (s : State) (a b : Word32) (p : Word256) :
    (s.setCurve a b p).mode = s.mode := rfl
@[simp] theorem State.setCurve_err (s : State) (a b : Word32) (p : Word256) :
    (s.setCurve a b p).err = s.err := rfl
@[simp] theorem State.setCurve_faultcmd (s : State) (a b : Word32) (p : Word256) :
    (s.setCurve a b p).faultcmd = s.faultcmd := rfl
@[simp] theorem State.setCurve_arga (s : State) (a b : Word32) (p : Word256) :
    (s.setCurve a b p).arga = s.arga := rfl
@[simp] theorem State.setCurve_argb (s : State) (a b : Word32) (p : Word256) :
    (s.setCurve a b p).argb = s.argb := rfl
@[simp] theorem State.setCurve_ca (s : State) (a b : Word32) (p : Word256) :
    (s.setCurve a b p).ca = a := rfl
@[simp] theorem State.setCurve_cb (s : State) (a b : Word32) (p : Word256) :
    (s.setCurve a b p).cb = b := rfl
@[simp] theorem State.setCurve_cp (s : State) (a b : Word32) (p : Word256) :
    (s.setCurve a b p).cp = p := rfl
@[simp] theorem State.setCurve_cvalid (s : State) (a b : Word32) (p : Word256) :
    (s.setCurve a b p).cvalid = true := rfl
@[simp] theorem State.setCurve_cn (s : State) (a b : Word32) (p : Word256) :
    (s.setCurve a b p).cn = s.cn := rfl
@[simp] theorem State.setCurve_ovalid (s : State) (a b : Word32) (p : Word256) :
    (s.setCurve a b p).ovalid = s.ovalid := rfl
@[simp] theorem State.setCurve_table (s : State) (a b : Word32) (p : Word256) :
    (s.setCurve a b p).table = s.table := rfl
@[simp] theorem State.setCurve_inputs (s : State) (a b : Word32) (p : Word256) :
    (s.setCurve a b p).inputs = s.inputs := rfl
@[simp] theorem State.setCurve_reply (s : State) (a b : Word32) (p : Word256) :
    (s.setCurve a b p).reply = s.reply := rfl
@[simp] theorem State.setCurve_freeCount (s : State) (a b : Word32) (p : Word256) :
    (s.setCurve a b p).freeCount = s.freeCount := rfl

/-! ### setOrder -/

@[simp] theorem State.setOrder_fregs (s : State) (n : Word256) (v : Bool) :
    (s.setOrder n v).fregs = s.fregs := rfl
@[simp] theorem State.setOrder_pregs (s : State) (n : Word256) (v : Bool) :
    (s.setOrder n v).pregs = s.pregs := rfl
@[simp] theorem State.setOrder_t (s : State) (n : Word256) (v : Bool) :
    (s.setOrder n v).t = s.t := rfl
@[simp] theorem State.setOrder_done (s : State) (n : Word256) (v : Bool) :
    (s.setOrder n v).done = s.done := rfl
@[simp] theorem State.setOrder_mode (s : State) (n : Word256) (v : Bool) :
    (s.setOrder n v).mode = s.mode := rfl
@[simp] theorem State.setOrder_err (s : State) (n : Word256) (v : Bool) :
    (s.setOrder n v).err = s.err := rfl
@[simp] theorem State.setOrder_faultcmd (s : State) (n : Word256) (v : Bool) :
    (s.setOrder n v).faultcmd = s.faultcmd := rfl
@[simp] theorem State.setOrder_arga (s : State) (n : Word256) (v : Bool) :
    (s.setOrder n v).arga = s.arga := rfl
@[simp] theorem State.setOrder_argb (s : State) (n : Word256) (v : Bool) :
    (s.setOrder n v).argb = s.argb := rfl
@[simp] theorem State.setOrder_ca (s : State) (n : Word256) (v : Bool) :
    (s.setOrder n v).ca = s.ca := rfl
@[simp] theorem State.setOrder_cb (s : State) (n : Word256) (v : Bool) :
    (s.setOrder n v).cb = s.cb := rfl
@[simp] theorem State.setOrder_cp (s : State) (n : Word256) (v : Bool) :
    (s.setOrder n v).cp = s.cp := rfl
@[simp] theorem State.setOrder_cvalid (s : State) (n : Word256) (v : Bool) :
    (s.setOrder n v).cvalid = s.cvalid := rfl
@[simp] theorem State.setOrder_cn (s : State) (n : Word256) (v : Bool) :
    (s.setOrder n v).cn = n := rfl
@[simp] theorem State.setOrder_ovalid (s : State) (n : Word256) (v : Bool) :
    (s.setOrder n v).ovalid = v := rfl
@[simp] theorem State.setOrder_table (s : State) (n : Word256) (v : Bool) :
    (s.setOrder n v).table = s.table := rfl
@[simp] theorem State.setOrder_inputs (s : State) (n : Word256) (v : Bool) :
    (s.setOrder n v).inputs = s.inputs := rfl
@[simp] theorem State.setOrder_reply (s : State) (n : Word256) (v : Bool) :
    (s.setOrder n v).reply = s.reply := rfl
@[simp] theorem State.setOrder_freeCount (s : State) (n : Word256) (v : Bool) :
    (s.setOrder n v).freeCount = s.freeCount := rfl

/-! ### forgetTable -/

@[simp] theorem State.forgetTable_fregs (s : State) : (s.forgetTable).fregs = s.fregs := rfl
@[simp] theorem State.forgetTable_pregs (s : State) : (s.forgetTable).pregs = s.pregs := rfl
@[simp] theorem State.forgetTable_t (s : State) : (s.forgetTable).t = s.t := rfl
@[simp] theorem State.forgetTable_done (s : State) : (s.forgetTable).done = s.done := rfl
@[simp] theorem State.forgetTable_mode (s : State) : (s.forgetTable).mode = s.mode := rfl
@[simp] theorem State.forgetTable_err (s : State) : (s.forgetTable).err = s.err := rfl
@[simp] theorem State.forgetTable_faultcmd (s : State) :
    (s.forgetTable).faultcmd = s.faultcmd := rfl
@[simp] theorem State.forgetTable_arga (s : State) : (s.forgetTable).arga = s.arga := rfl
@[simp] theorem State.forgetTable_argb (s : State) : (s.forgetTable).argb = s.argb := rfl
@[simp] theorem State.forgetTable_ca (s : State) : (s.forgetTable).ca = s.ca := rfl
@[simp] theorem State.forgetTable_cb (s : State) : (s.forgetTable).cb = s.cb := rfl
@[simp] theorem State.forgetTable_cp (s : State) : (s.forgetTable).cp = s.cp := rfl
@[simp] theorem State.forgetTable_cvalid (s : State) : (s.forgetTable).cvalid = s.cvalid := rfl
@[simp] theorem State.forgetTable_cn (s : State) : (s.forgetTable).cn = s.cn := rfl
@[simp] theorem State.forgetTable_ovalid (s : State) : (s.forgetTable).ovalid = s.ovalid := rfl
@[simp] theorem State.forgetTable_table (s : State) :
    (s.forgetTable).table = boundedTable Config.memoryLimit (Config.tableResidue s.freeCount) := rfl
@[simp] theorem State.forgetTable_inputs (s : State) : (s.forgetTable).inputs = s.inputs := rfl
@[simp] theorem State.forgetTable_reply (s : State) : (s.forgetTable).reply = s.reply := rfl
@[simp] theorem State.forgetTable_freeCount (s : State) :
    (s.forgetTable).freeCount = s.freeCount + 1 := rfl

/-! ### answer -/

@[simp] theorem State.answer_fregs (s : State) (r : Reply) : (s.answer r).fregs = s.fregs := rfl
@[simp] theorem State.answer_pregs (s : State) (r : Reply) : (s.answer r).pregs = s.pregs := rfl
@[simp] theorem State.answer_t (s : State) (r : Reply) : (s.answer r).t = s.t := rfl
@[simp] theorem State.answer_done (s : State) (r : Reply) : (s.answer r).done = s.done := rfl
@[simp] theorem State.answer_mode (s : State) (r : Reply) : (s.answer r).mode = s.mode := rfl
@[simp] theorem State.answer_err (s : State) (r : Reply) : (s.answer r).err = s.err := rfl
@[simp] theorem State.answer_faultcmd (s : State) (r : Reply) :
    (s.answer r).faultcmd = s.faultcmd := rfl
@[simp] theorem State.answer_arga (s : State) (r : Reply) : (s.answer r).arga = s.arga := rfl
@[simp] theorem State.answer_argb (s : State) (r : Reply) : (s.answer r).argb = s.argb := rfl
@[simp] theorem State.answer_ca (s : State) (r : Reply) : (s.answer r).ca = s.ca := rfl
@[simp] theorem State.answer_cb (s : State) (r : Reply) : (s.answer r).cb = s.cb := rfl
@[simp] theorem State.answer_cp (s : State) (r : Reply) : (s.answer r).cp = s.cp := rfl
@[simp] theorem State.answer_cvalid (s : State) (r : Reply) : (s.answer r).cvalid = s.cvalid := rfl
@[simp] theorem State.answer_cn (s : State) (r : Reply) : (s.answer r).cn = s.cn := rfl
@[simp] theorem State.answer_ovalid (s : State) (r : Reply) : (s.answer r).ovalid = s.ovalid := rfl
@[simp] theorem State.answer_table (s : State) (r : Reply) : (s.answer r).table = s.table := rfl
@[simp] theorem State.answer_inputs (s : State) (r : Reply) : (s.answer r).inputs = s.inputs := rfl
@[simp] theorem State.answer_reply (s : State) (r : Reply) : (s.answer r).reply = r := rfl
@[simp] theorem State.answer_freeCount (s : State) (r : Reply) :
    (s.answer r).freeCount = s.freeCount := rfl

/-! ### useFree -/

@[simp] theorem State.useFree_fregs (s : State) : (s.useFree).fregs = s.fregs := rfl
@[simp] theorem State.useFree_pregs (s : State) : (s.useFree).pregs = s.pregs := rfl
@[simp] theorem State.useFree_t (s : State) : (s.useFree).t = s.t := rfl
@[simp] theorem State.useFree_done (s : State) : (s.useFree).done = s.done := rfl
@[simp] theorem State.useFree_mode (s : State) : (s.useFree).mode = s.mode := rfl
@[simp] theorem State.useFree_err (s : State) : (s.useFree).err = s.err := rfl
@[simp] theorem State.useFree_faultcmd (s : State) : (s.useFree).faultcmd = s.faultcmd := rfl
@[simp] theorem State.useFree_arga (s : State) : (s.useFree).arga = s.arga := rfl
@[simp] theorem State.useFree_argb (s : State) : (s.useFree).argb = s.argb := rfl
@[simp] theorem State.useFree_ca (s : State) : (s.useFree).ca = s.ca := rfl
@[simp] theorem State.useFree_cb (s : State) : (s.useFree).cb = s.cb := rfl
@[simp] theorem State.useFree_cp (s : State) : (s.useFree).cp = s.cp := rfl
@[simp] theorem State.useFree_cvalid (s : State) : (s.useFree).cvalid = s.cvalid := rfl
@[simp] theorem State.useFree_cn (s : State) : (s.useFree).cn = s.cn := rfl
@[simp] theorem State.useFree_ovalid (s : State) : (s.useFree).ovalid = s.ovalid := rfl
@[simp] theorem State.useFree_table (s : State) : (s.useFree).table = s.table := rfl
@[simp] theorem State.useFree_inputs (s : State) : (s.useFree).inputs = s.inputs := rfl
@[simp] theorem State.useFree_reply (s : State) : (s.useFree).reply = s.reply := rfl
@[simp] theorem State.useFree_freeCount (s : State) : (s.useFree).freeCount = s.freeCount + 1 := rfl

/-! ### acceptCommand -/

@[simp] theorem State.acceptCommand_fregs (s : State) (w : Word32) :
    (s.acceptCommand w).fregs = s.fregs := rfl
@[simp] theorem State.acceptCommand_pregs (s : State) (w : Word32) :
    (s.acceptCommand w).pregs = s.pregs := rfl
@[simp] theorem State.acceptCommand_t (s : State) (w : Word32) : (s.acceptCommand w).t = s.t := rfl
@[simp] theorem State.acceptCommand_done (s : State) (w : Word32) :
    (s.acceptCommand w).done = false := rfl
@[simp] theorem State.acceptCommand_mode (s : State) (w : Word32) :
    (s.acceptCommand w).mode = .busy w := rfl
@[simp] theorem State.acceptCommand_err (s : State) (w : Word32) :
    (s.acceptCommand w).err = s.err := rfl
@[simp] theorem State.acceptCommand_faultcmd (s : State) (w : Word32) :
    (s.acceptCommand w).faultcmd = s.faultcmd := rfl
@[simp] theorem State.acceptCommand_arga (s : State) (w : Word32) :
    (s.acceptCommand w).arga = s.arga := rfl
@[simp] theorem State.acceptCommand_argb (s : State) (w : Word32) :
    (s.acceptCommand w).argb = s.argb := rfl
@[simp] theorem State.acceptCommand_ca (s : State) (w : Word32) :
    (s.acceptCommand w).ca = s.ca := rfl
@[simp] theorem State.acceptCommand_cb (s : State) (w : Word32) :
    (s.acceptCommand w).cb = s.cb := rfl
@[simp] theorem State.acceptCommand_cp (s : State) (w : Word32) :
    (s.acceptCommand w).cp = s.cp := rfl
@[simp] theorem State.acceptCommand_cvalid (s : State) (w : Word32) :
    (s.acceptCommand w).cvalid = s.cvalid := rfl
@[simp] theorem State.acceptCommand_cn (s : State) (w : Word32) :
    (s.acceptCommand w).cn = s.cn := rfl
@[simp] theorem State.acceptCommand_ovalid (s : State) (w : Word32) :
    (s.acceptCommand w).ovalid = s.ovalid := rfl
@[simp] theorem State.acceptCommand_table (s : State) (w : Word32) :
    (s.acceptCommand w).table = s.table := rfl
@[simp] theorem State.acceptCommand_inputs (s : State) (w : Word32) :
    (s.acceptCommand w).inputs = s.inputs := rfl
@[simp] theorem State.acceptCommand_reply (s : State) (w : Word32) :
    (s.acceptCommand w).reply = .write .ok := rfl
@[simp] theorem State.acceptCommand_freeCount (s : State) (w : Word32) :
    (s.acceptCommand w).freeCount = s.freeCount := rfl

/-! ### writeLoc: only the read/write registers change -/

@[simp] theorem State.writeLoc_t (s : State) (l : Loc) (v : Word32) :
    (s.writeLoc l v).t = s.t := by cases l <;> rfl
@[simp] theorem State.writeLoc_done (s : State) (l : Loc) (v : Word32) :
    (s.writeLoc l v).done = s.done := by cases l <;> rfl
@[simp] theorem State.writeLoc_mode (s : State) (l : Loc) (v : Word32) :
    (s.writeLoc l v).mode = s.mode := by cases l <;> rfl
@[simp] theorem State.writeLoc_err (s : State) (l : Loc) (v : Word32) :
    (s.writeLoc l v).err = s.err := by cases l <;> rfl
@[simp] theorem State.writeLoc_faultcmd (s : State) (l : Loc) (v : Word32) :
    (s.writeLoc l v).faultcmd = s.faultcmd := by cases l <;> rfl
@[simp] theorem State.writeLoc_ca (s : State) (l : Loc) (v : Word32) :
    (s.writeLoc l v).ca = s.ca := by cases l <;> rfl
@[simp] theorem State.writeLoc_cb (s : State) (l : Loc) (v : Word32) :
    (s.writeLoc l v).cb = s.cb := by cases l <;> rfl
@[simp] theorem State.writeLoc_cp (s : State) (l : Loc) (v : Word32) :
    (s.writeLoc l v).cp = s.cp := by cases l <;> rfl
@[simp] theorem State.writeLoc_cvalid (s : State) (l : Loc) (v : Word32) :
    (s.writeLoc l v).cvalid = s.cvalid := by cases l <;> rfl
@[simp] theorem State.writeLoc_cn (s : State) (l : Loc) (v : Word32) :
    (s.writeLoc l v).cn = s.cn := by cases l <;> rfl
@[simp] theorem State.writeLoc_ovalid (s : State) (l : Loc) (v : Word32) :
    (s.writeLoc l v).ovalid = s.ovalid := by cases l <;> rfl
@[simp] theorem State.writeLoc_table (s : State) (l : Loc) (v : Word32) :
    (s.writeLoc l v).table = s.table := by cases l <;> rfl
@[simp] theorem State.writeLoc_inputs (s : State) (l : Loc) (v : Word32) :
    (s.writeLoc l v).inputs = s.inputs := by cases l <;> rfl
@[simp] theorem State.writeLoc_reply (s : State) (l : Loc) (v : Word32) :
    (s.writeLoc l v).reply = s.reply := by cases l <;> rfl
@[simp] theorem State.writeLoc_freeCount (s : State) (l : Loc) (v : Word32) :
    (s.writeLoc l v).freeCount = s.freeCount := by cases l <;> rfl

end Sys2Proof.Machine
end

