-- ==== Sys2Proof/Laws/Operands.lean ====
section
/-! SUPPORT. Register reads after register writes, and the words of a wide register. -/

namespace Sys2Proof.Machine

@[simp] theorem State.readF_writeF_same (s : State) (i : FReg) (v : Word256) :
    (s.writeF i v).readF i = v := by
  simp [State.readF]

theorem State.readF_writeF_ne (s : State) {i j : FReg} (v : Word256) (h : i ≠ j) :
    (s.writeF i v).readF j = s.readF j := by
  simp only [State.readF, State.writeF_fregs, Fin.getElem_fin]
  exact Vector.getElem_set_ne _ _ (fun e => h (Fin.ext e))

@[simp] theorem State.readP_writeP_same (s : State) (i : PReg) (Q : Point) :
    (s.writeP i Q).readP i = Q := by
  simp [State.readP]

theorem State.readP_writeP_ne (s : State) {i j : PReg} (Q : Point) (h : i ≠ j) :
    (s.writeP i Q).readP j = s.readP j := by
  simp only [State.readP, State.writeP_pregs, Fin.getElem_fin]
  exact Vector.getElem_set_ne _ _ (fun e => h (Fin.ext e))

@[simp] theorem State.readP_writeF (s : State) (i : FReg) (v : Word256) (j : PReg) :
    (s.writeF i v).readP j = s.readP j := rfl

@[simp] theorem State.readF_writeP (s : State) (i : PReg) (Q : Point) (j : FReg) :
    (s.writeP i Q).readF j = s.readF j := rfl

/-- A value below `2^W` is the content of the register it is written to (spec R11, R166). -/
theorem toReg_toNat_of_lt {v : Nat} (h : v < 2 ^ 256) : (toReg v).toNat = v := by
  simp only [toReg, BitVec.toNat_ofNat, Nat.mod_eq_of_lt h]

/-- `sext_32` is the two's complement reading of a word (spec R11). -/
theorem sext32_eq_toInt (v : Word32) : sext32 v = v.toInt := by
  simp only [sext32, BitVec.toInt_eq_toNat_cond]
  have := v.isLt
  split <;> split <;> omega

/-- The word just written is read back (spec R63, R69). -/
theorem wordAt_setWordAt_same (v : Word256) (k : Fin 8) (d : Word32) :
    wordAt (setWordAt v k d) k = d := by
  ext i hi
  simp only [wordAt, setWordAt, BitVec.getElem_extractLsb', BitVec.getLsbD_or, BitVec.getLsbD_and,
    BitVec.getLsbD_not, BitVec.getLsbD_shiftLeft, BitVec.getLsbD_setWidth]
  have hk := k.isLt
  have h1 : 32 * k.val + i < 256 := by omega
  have h2 : 32 * k.val + i - 32 * k.val = i := by omega
  have h3 : ¬ (32 * k.val + i < 32 * k.val) := by omega
  have h4 : (0xFFFFFFFF#256).getLsbD i = true := by
    have : ∀ i : Fin 32, (0xFFFFFFFF#256).getLsbD i = true := by decide
    exact this ⟨i, hi⟩
  have h5 : i < 256 := by omega
  simp [h1, h2, h3, h4, h5, ← BitVec.getLsbD_eq_getElem]

/-- The other words of the register are unchanged (spec R63, R69). -/
theorem wordAt_setWordAt_ne (v : Word256) {k k' : Fin 8} (d : Word32) (h : k ≠ k') :
    wordAt (setWordAt v k d) k' = wordAt v k' := by
  have hne : k.val ≠ k'.val := fun e => h (Fin.ext e)
  ext i hi
  simp only [wordAt, setWordAt, BitVec.getElem_extractLsb', BitVec.getLsbD_or, BitVec.getLsbD_and,
    BitVec.getLsbD_not, BitVec.getLsbD_shiftLeft, BitVec.getLsbD_setWidth]
  have hk := k.isLt
  have hk' := k'.isLt
  have h1 : 32 * k'.val + i < 256 := by omega
  by_cases hlt : 32 * k'.val + i < 32 * k.val
  · simp [h1, hlt]
  · have hge : 32 ≤ 32 * k'.val + i - 32 * k.val := by omega
    have h4 : (0xFFFFFFFF#256).getLsbD (32 * k'.val + i - 32 * k.val) = false := by
      have hm : ∀ j, 32 ≤ j → (0xFFFFFFFF#256).getLsbD j = false := by
        intro j hj
        rw [show (0xFFFFFFFF#256) = BitVec.setWidth 256 (BitVec.allOnes 32) by decide,
          BitVec.getLsbD_setWidth, BitVec.getLsbD_of_ge _ _ hj, Bool.and_false]
      exact hm _ hge
    simp [h1, hlt, h4, BitVec.getLsbD_of_ge d _ hge]

end Sys2Proof.Machine
end

