-- ==== Sys2Proof/Laws/Ops.lean ====
section
/-! SUPPORT. What the shared operations can do, said once. -/

namespace Sys2Proof.Machine

@[simp] theorem State.finish_ok (s s' : State) (w : Word32) :
    s.finish w (.ok s') = .next s'.complete := rfl

@[simp] theorem State.finish_error (s : State) (w : Word32) (e : FaultCode) :
    s.finish w (.error e) = .next (s.raise e w) := rfl

/-- A command ends in its completion or in fault entry, and in nothing else (spec R66, R233). -/
theorem State.finish_eq_next_iff (s t : State) (w : Word32) (r : Except FaultCode State) :
    s.finish w r = .next t ↔
      (∃ s', r = .ok s' ∧ t = s'.complete) ∨ (∃ e, r = .error e ∧ t = s.raise e w) := by
  cases r <;> simp [eq_comm]

/-- A command always ends in a next state (spec R277). -/
theorem State.finish_exists_next (s : State) (w : Word32) (r : Except FaultCode State) :
    ∃ t, s.finish w r = .next t := by
  cases r <;> simp

@[simp] theorem except_ok_bind {α β : Type} (a : α) (f : α → Except FaultCode β) :
    (Except.ok a >>= f) = f a := rfl

@[simp] theorem except_error_bind {α β : Type} (e : FaultCode) (f : α → Except FaultCode β) :
    ((Except.error e : Except FaultCode α) >>= f) = .error e := rfl

/-- A sequence succeeds when both of its parts do. -/
theorem except_bind_eq_ok_iff {α β : Type} (x : Except FaultCode α) (f : α → Except FaultCode β)
    (b : β) : (x >>= f) = .ok b ↔ ∃ a, x = .ok a ∧ f a = .ok b := by
  cases x <;> simp

/-- A sequence raises the first fault it meets (spec R240). -/
theorem except_bind_eq_error_iff {α β : Type} (x : Except FaultCode α) (f : α → Except FaultCode β)
    (e : FaultCode) :
    (x >>= f) = .error e ↔ x = .error e ∨ ∃ a, x = .ok a ∧ f a = .error e := by
  cases x <;> simp

theorem State.needCurve_of_cvalid {s : State} (h : s.cvalid = true) : s.needCurve = .ok s.curve := by
  simp [State.needCurve, h]

theorem State.needCurve_of_not_cvalid {s : State} (h : s.cvalid = false) :
    s.needCurve = .error .noCurve := by
  simp [State.needCurve, h]

/-- The curve test gives the current curve or E_NO_CURVE (spec R231). -/
theorem State.needCurve_cases (s : State) :
    (s.cvalid = true ∧ s.needCurve = .ok s.curve) ∨
      (s.cvalid = false ∧ s.needCurve = .error .noCurve) := by
  cases h : s.cvalid <;> simp [State.needCurve, h]

@[simp] theorem State.curve_a (s : State) : s.curve.a = sext32 s.ca := rfl
@[simp] theorem State.curve_b (s : State) : s.curve.b = sext32 s.cb := rfl
@[simp] theorem State.curve_p (s : State) : s.curve.p = s.cp.toNat := rfl

/-- Construction writes the curve and clears the order, or raises E_CURVE_PARAMS (spec R142). -/
theorem State.constructCurve_eq_ok_iff (s s' : State) (pp : Word256) :
    s.constructCurve pp = .ok s' ↔
      pp ≠ 0 ∧ discriminant (sext32 s.arga) (sext32 s.argb) ≠ 0 ∧
        s' = (s.setCurve s.arga s.argb pp).setOrder 0 false := by
  unfold State.constructCurve
  split
  · rename_i h
    exact ⟨(fun e => nomatch e), fun e => absurd h e.1⟩
  · rename_i h
    split
    · rename_i h'
      exact ⟨(fun e => nomatch e), fun e => absurd h' e.2.1⟩
    · rename_i h'
      exact ⟨fun e => ⟨h, h', (Except.ok.inj e).symm⟩, fun e => by rw [e.2.2]⟩

theorem FaultCode.number_ne_zero (e : FaultCode) : e.number ≠ 0 := by cases e <;> decide

theorem FaultCode.number_le_eight (e : FaultCode) : e.number.toNat ≤ 8 := by cases e <;> decide

/-- Distinct conditions have distinct codes (spec R233: "one code per condition"). -/
theorem FaultCode.number_injective {e e' : FaultCode} (h : e.number = e'.number) : e = e' := by
  cases e <;> cases e' <;> first | rfl | exact absurd h (by decide)

end Sys2Proof.Machine
end

