-- ==== Sys2Proof/Laws/Bus.lean ====
section
/-! SUPPORT. What a step does, by its next event and the mode. -/

namespace Sys2Proof.Machine

theorem step_of_no_input {s : State} (h : s.inputs = []) : step s = engineStep s := by
  simp [step, nextEvent, h]

theorem step_of_input {s : State} {e : Input} {rest : List Input} (h : s.inputs = e :: rest) :
    step s = deliver e { s with inputs := rest } := by
  simp [step, nextEvent, h]

@[simp] theorem deliver_read (addr width : Nat) (s : State) :
    deliver (.read addr width) s = .next (busRead addr width s) := rfl

@[simp] theorem deliver_write (addr width : Nat) (v : Word32) (s : State) :
    deliver (.write addr width v) s = busWrite addr width v s := rfl

@[simp] theorem deliver_reset (s : State) : deliver .reset s = .next (resetMachine s) := rfl

@[simp] theorem deliver_engine (s : State) : deliver .engine s = engineStep s := rfl

/-- The command in flight is decoded and executed (spec R66). -/
theorem engineStep_of_decoded {s : State} {w : Word32} {i : Instr} (hm : s.mode = .busy w)
    (hd : decode w = .ok i) : engineStep s = exec i s := by
  simp [engineStep, hm, hd]

/-- A word that is no command faults E_ILLEGAL_CMD (spec R95, R232). -/
theorem engineStep_of_illegal {s : State} {w : Word32} {e : DecodeError} (hm : s.mode = .busy w)
    (hd : decode w = .error e) : engineStep s = .next (s.raise .illegalCmd w) := by
  simp [engineStep, hm, hd]

theorem engineStep_of_idle {s : State} (hm : s.mode = .idle) : engineStep s = .next s := by
  simp [engineStep, hm]

theorem engineStep_of_faulted {s : State} (hm : s.mode = .faulted) : engineStep s = .next s := by
  simp [engineStep, hm]

/-- A read changes nothing but the reply and the index of the next free value (spec R62). -/
theorem busRead_changes_only_reply (addr width : Nat) (s : State) :
    ∃ r k, busRead addr width s = { s with reply := r, freeCount := k } := by
  unfold busRead
  split
  · split
    · exact ⟨_, _, rfl⟩
    · exact ⟨_, _, rfl⟩
  · split
    · split
      · exact ⟨_, _, rfl⟩
      · exact ⟨_, _, rfl⟩
    · exact ⟨_, _, rfl⟩
  · split
    · split
      · exact ⟨_, _, rfl⟩
      · exact ⟨_, _, rfl⟩
    · exact ⟨_, _, rfl⟩

/-- What a write can do: issue a command, replace one word, execute FACK, or be refused
(spec R63, R64, R66, R68). -/
theorem busWrite_cases (addr width : Nat) (v : Word32) (s : State) :
    (s.mode = .idle ∧ locate addr = some .cmd ∧
        busWrite addr width v s = .next (s.acceptCommand v)) ∨
    (s.mode = .idle ∧ ∃ l, locate addr = some l ∧ l.writable = true ∧
        busWrite addr width v s = .next ((s.writeLoc l v).answer (.write .ok))) ∨
    (s.mode = .faulted ∧ locate addr = some .cmd ∧ v = encode .fack ∧
        busWrite addr width v s = exec .fack (s.answer (.write .ok))) ∨
    busWrite addr width v s = .next s.refuseWrite := by
  unfold busWrite
  split
  · simp
  · rename_i hm
    split
    · rename_i h
      simp [h.2.1, h.2.2, hm]
    · simp
  · rename_i hm
    split
    · split
      · rename_i hl
        exact .inl ⟨hm, hl, rfl⟩
      · rename_i l _ hl
        split
        · rename_i hw
          exact .inr (.inl ⟨hm, l, hl, hw, rfl⟩)
        · simp
      · simp
    · simp

end Sys2Proof.Machine
end

