-- ==== Sys2Proof/Laws/Decode.lean ====
section
/-! SUPPORT. A word assembled from fields has those fields (spec R91). -/

namespace Sys2Proof

theorem assemble_toNat {op : Nat} (h : op < 256) (rd rs1 rs2 : Fin 16) :
    (assemble op rd rs1 rs2).toNat =
      op * 2 ^ 24 + rd.val * 2 ^ 20 + rs1.val * 2 ^ 16 + rs2.val * 2 ^ 12 := by
  have := rd.isLt
  have := rs1.isLt
  have := rs2.isLt
  simp only [assemble, BitVec.toNat_ofNat]
  omega

/-- The fields of an assembled word are the fields it was assembled from, and `zero` is 0. -/
theorem ofWord_assemble {op : Nat} (h : op < 256) (rd rs1 rs2 : Fin 16) :
    CmdFields.ofWord (assemble op rd rs1 rs2) = ⟨BitVec.ofNat 8 op, rd, rs1, rs2, 0⟩ := by
  have hw := assemble_toNat h rd rs1 rs2
  have := rd.isLt
  have := rs1.isLt
  have := rs2.isLt
  simp only [CmdFields.ofWord, nibbleAt, hw, CmdFields.mk.injEq]
  refine ⟨?_, Fin.ext ?_, Fin.ext ?_, Fin.ext ?_, ?_⟩
  · apply BitVec.eq_of_toNat_eq
    simp only [BitVec.toNat_ofNat]
    omega
  · simp only
    omega
  · simp only
    omega
  · simp only
    omega
  · apply BitVec.eq_of_toNat_eq
    rw [BitVec.toNat_ofNat, show BitVec.toNat (0 : BitVec 12) = 0 from rfl]
    omega

end Sys2Proof
end

