-- ==== Sys2Proof/Laws/Field.lean ====
section
/-! SUPPORT. Small lemmas about the modular arithmetic and the digits of a scalar. -/

namespace Sys2Proof.Machine

/-- A residue is canonical (spec R10). -/
theorem residue_lt (z : Int) {p : Nat} (h : 0 < p) : residue z p < p := by
  have hp : (0 : Int) < (p : Int) := by exact_mod_cast h
  have h1 := Int.emod_lt_of_pos z hp
  have h2 := Int.emod_nonneg z hp.ne'
  unfold residue
  omega

/-- The residue as an integer is the floored remainder (spec R10). -/
theorem residue_cast (z : Int) {p : Nat} (h : 0 < p) : (residue z p : Int) = z % (p : Int) := by
  have hp : (0 : Int) < (p : Int) := by exact_mod_cast h
  exact Int.toNat_of_nonneg (Int.emod_nonneg z hp.ne')

@[simp] theorem residue_natCast (z p : Nat) : residue (z : Int) p = z % p := by
  unfold residue
  rw [← Int.natCast_emod, Int.toNat_natCast]

@[simp] theorem residue_one (z : Int) : residue z 1 = 0 := by simp [residue]

theorem residue_eq_zero_iff (z : Int) {p : Nat} (h : 0 < p) : residue z p = 0 ↔ (p : Int) ∣ z := by
  rw [Int.dvd_iff_emod_eq_zero, ← residue_cast z h]
  exact_mod_cast Iff.rfl

@[simp] theorem powerLoop_nil (p z acc : Nat) : powerLoop p [] z acc = acc := rfl

@[simp] theorem powerLoop_cons (p : Nat) (d : Bool) (rest : List Bool) (z acc : Nat) :
    powerLoop p (d :: rest) z acc =
      powerLoop p rest (z * z % p) (if d then acc * z % p else acc) := rfl

@[simp] theorem binaryDigitsUpTo_zero_right (fuel : Nat) : binaryDigitsUpTo fuel 0 = [] := by
  cases fuel <;> rfl

@[simp] theorem binaryDigits_zero : binaryDigits 0 = [] := rfl

theorem binaryDigitsUpTo_succ_of_ne_zero (fuel : Nat) {k : Nat} (h : k ≠ 0) :
    binaryDigitsUpTo (fuel + 1) k = (k % 2 == 1) :: binaryDigitsUpTo fuel (k / 2) := by
  simp [binaryDigitsUpTo, h]

/-- Enough fuel is enough: the digits do not depend on it. -/
theorem binaryDigitsUpTo_eq_of_lt {k f g : Nat} (hf : k < 2 ^ f) (hg : k < 2 ^ g) :
    binaryDigitsUpTo f k = binaryDigitsUpTo g k := by
  induction f generalizing k g with
  | zero =>
    obtain rfl : k = 0 := by simpa using hf
    simp
  | succ f ih =>
    cases g with
    | zero =>
      obtain rfl : k = 0 := by simpa using hg
      simp
    | succ g =>
      by_cases h : k = 0
      · simp [h]
      · rw [binaryDigitsUpTo_succ_of_ne_zero f h, binaryDigitsUpTo_succ_of_ne_zero g h]
        rw [ih (k := k / 2) (g := g) (by rw [pow_succ] at hf; omega) (by rw [pow_succ] at hg; omega)]

/-- The digits of `k` are its parity and the digits of its half (spec R184's loop). -/
theorem binaryDigits_of_ne_zero {k : Nat} (h : k ≠ 0) :
    binaryDigits k = (k % 2 == 1) :: binaryDigits (k / 2) := by
  unfold binaryDigits
  rw [binaryDigitsUpTo_succ_of_ne_zero _ h]
  congr 1
  have hk := Nat.lt_log2_self (n := k)
  exact binaryDigitsUpTo_eq_of_lt (by rw [pow_succ] at hk; omega) Nat.lt_log2_self

end Sys2Proof.Machine
end

