-- ==== Sys2Proof/Laws/Group.lean ====
section
/-! SUPPORT. One lemma per case of the group-law functions. -/

namespace Sys2Proof.Machine

@[simp] theorem isZero_identity : isZero identityPoint = true := rfl

theorem isZero_eq_true_iff (Q : Point) : isZero Q = true ↔ Q = identityPoint := by
  cases Q
  simp [isZero, identityPoint]

theorem samePoint_eq_true_iff (Q1 Q2 : Point) : samePoint Q1 Q2 = true ↔ Q1 = Q2 := by
  cases Q1
  cases Q2
  simp [samePoint]

@[simp] theorem hasPoint_identity (c : Curve) : hasPoint c identityPoint = true := rfl

@[simp] theorem double_identity (c : Curve) : double c identityPoint = .ok identityPoint := rfl

/-- Case 1 of spec R182. -/
@[simp] theorem add_identity_right (c : Curve) (Q : Point) : add c Q identityPoint = .ok Q := rfl

/-- Case 2 of spec R182. -/
@[simp] theorem add_identity_left (c : Curve) (Q : Point) : add c identityPoint Q = .ok Q := by
  by_cases h : isZero Q = true
  · obtain rfl := (isZero_eq_true_iff Q).mp h
    rfl
  · simp [add, h]

/-- Case 3 of spec R182. -/
theorem add_self (c : Curve) {Q : Point} (h : isZero Q = false) : add c Q Q = double c Q := by
  simp [add, h]

/-- Case 4 of spec R182. -/
theorem add_of_x_eq (c : Curve) {Q1 Q2 : Point} (h1 : isZero Q1 = false) (h2 : isZero Q2 = false)
    (hx : Q1.x = Q2.x) (hy : Q1.y ≠ Q2.y) : add c Q1 Q2 = .ok identityPoint := by
  simp [add, h1, h2, hx, hy]

@[simp] theorem scalarMultiply_zero (c : Curve) (Q : Point) :
    scalarMultiply c Q 0 = .error .invalidInput := rfl

theorem scalarMultiply_of_ne_zero (c : Curve) (Q : Point) {n : Nat} (h : n ≠ 0) :
    scalarMultiply c Q n = scalarLoop c (binaryDigits n) identityPoint Q := by
  simp [scalarMultiply, h]

@[simp] theorem scalarLoop_nil (c : Curve) (acc power : Point) :
    scalarLoop c [] acc power = .ok acc := rfl

/-- Every multiple of the identity is the identity: the loop never faults on it. -/
theorem scalarLoop_identity (c : Curve) (digits : List Bool) :
    scalarLoop c digits identityPoint identityPoint = .ok identityPoint := by
  induction digits with
  | nil => rfl
  | cons d rest ih => cases d <;> simp [scalarLoop, ih]

/-- The table keeps one entry per key: lookup after insert (spec R203). -/
theorem tableLookup_insert_self_of_absent (tab : Table) (K : Point) (j : Nat)
    (h : tableLookup tab K = none) : tableLookup (tableInsert tab K j) K = some j := by
  simp only [tableInsert, h]
  simp [tableLookup]

theorem tableInsert_of_present {tab : Table} {K : Point} {j j' : Nat}
    (h : tableLookup tab K = some j') : tableInsert tab K j = tab := by
  simp [tableInsert, h]

theorem tableLookup_eq_none_iff (tab : Table) (K : Point) :
    tableLookup tab K = none ↔ K ∉ tab.map Prod.fst := by
  induction tab with
  | nil => simp [tableLookup]
  | cons e rest ih =>
    obtain ⟨K', j⟩ := e
    by_cases h : K = K'
    · simp [tableLookup, h]
    · have hb : (K == K') = false := by simp [h]
      simp only [tableLookup, List.lookup_cons, hb, List.map_cons, List.mem_cons, h, false_or]
      exact ih

end Sys2Proof.Machine
end

