-- ==== Sys2Proof/Laws/Table.lean ====
section
/-! SUPPORT. The table's operations keep its form (spec R38, R203). -/

namespace Sys2Proof.Machine

theorem tableClear_ok (limit : Nat) (tab : Table) : TableOk limit (tableClear tab) :=
  ⟨by simp [tableClear], by simp [tableClear], by simp [tableClear]⟩

theorem tableInsert_length_le (tab : Table) (K : Point) (j : Nat) :
    (tableInsert tab K j).length ≤ tab.length + 1 := by
  unfold tableInsert
  split <;> simp

/-- An insert keeps the keys distinct and the indices positive, and uses at most one more entry. -/
theorem tableInsert_ok {limit : Nat} {tab : Table} (h : TableOk limit tab) (K : Point) {j : Nat}
    (hj : 0 < j) : TableOk (limit + 1) (tableInsert tab K j) := by
  refine ⟨?_, ?_, (tableInsert_length_le tab K j).trans (by have := h.withinCapacity; omega)⟩
  · cases hl : tableLookup tab K with
    | some j' => rw [tableInsert_of_present hl]; exact h.keysDistinct
    | none =>
      simp only [tableInsert, hl, List.map_cons, List.nodup_cons]
      exact ⟨(tableLookup_eq_none_iff tab K).mp hl, h.keysDistinct⟩
  · cases hl : tableLookup tab K with
    | some j' => rw [tableInsert_of_present hl]; exact h.indicesPositive
    | none =>
      simp only [tableInsert, hl, List.mem_cons]
      rintro e (rfl | he)
      · exact hj
      · exact h.indicesPositive e he

/-- The free table is within the bounds of spec R38. -/
theorem boundedTable_ok (limit : Nat) (raw : List (Point × Nat)) :
    TableOk limit (boundedTable limit raw) := by
  have key : ∀ (l : List (Point × Nat)) (n : Nat) (tab : Table), TableOk n tab →
      TableOk (n + l.length)
        (l.foldl (fun tab e => tableInsert tab e.1 (e.2 + 1)) tab) := by
    intro l
    induction l with
    | nil => intro n tab h; simpa using h
    | cons e rest ih =>
      intro n tab h
      have := ih (n + 1) _ (tableInsert_ok h e.1 (Nat.succ_pos e.2))
      simpa [Nat.add_assoc, Nat.add_comm 1] using this
  have h := key (raw.take limit) 0 [] ⟨by simp, by simp, by simp⟩
  have hlen : 0 + (raw.take limit).length ≤ limit := by simp [List.length_take]
  exact ⟨h.keysDistinct, h.indicesPositive, h.withinCapacity.trans hlen⟩

/-- `MEMORY_LIMIT` is in the range the spec gives it (spec R6). -/
theorem memoryLimit_pos : 1 ≤ Config.memoryLimit := by simp [Config.memoryLimit]

theorem memoryLimit_lt : Config.memoryLimit < 2 ^ 32 := by
  have := Config.memoryLimitPred.isLt
  unfold Config.memoryLimit
  omega

end Sys2Proof.Machine
end

