-- ==== Sys2Proof/Laws/Exec.lean ====
section
/-! SUPPORT. What executing a command can do, said once for all commands: the shape of its result and
the state its faults are raised on. -/

namespace Sys2Proof.Machine

/-- The state on which a command's faults are raised: the one before it, the hidden table of a DLOG
apart (spec R233, U5). -/
def faultBase (i : Instr) (s : State) : State :=
  match i with
  | .dlog _ _ _ => s.afterSolver
  | _ => s

/-- What a command that completes has written, before `DONE <- 1` (spec R92). -/
def ResultShape (i : Instr) (s s' : State) : Prop :=
  match i with
  | .fack => s' = s.acknowledge
  | .ptZero rd => s' = s.writeP rd identityPoint
  | .ptSet rd rs1 rs2 => s' = s.writeP rd ⟨s.readF rs1, s.readF rs2⟩
  | .ptGetx rd rs1 => s' = s.writeF rd (s.readP rs1).x
  | .ptGety rd rs1 => s' = s.writeF rd (s.readP rs1).y
  | .ptIsz _ => ∃ b, s' = s.setT b
  | .ptEq _ _ => ∃ b, s' = s.setT b
  | .crvInit rs1 => s.readF rs1 ≠ 0 ∧ discriminant (sext32 s.arga) (sext32 s.argb) ≠ 0 ∧
      s' = (s.setCurve s.arga s.argb (s.readF rs1)).setOrder 0 false
  | .crvSecp => s' = (s.setCurve 0 7 secpP).setOrder secpN true
  | .crvGetp rd => s.cvalid = true ∧ s' = s.writeF rd s.cp
  | .ordGet rd => s.cvalid = true ∧ ∃ v, s' = s.writeF rd v
  | .ordSet rs1 => s.cvalid = true ∧ s' = s.setOrder (s.readF rs1) true
  | .haspt _ => s.cvalid = true ∧ ∃ b, s' = s.setT b
  | .pneg rd _ => s.cvalid = true ∧ ∃ Q, s' = s.writeP rd Q
  | .padd rd _ _ => s.cvalid = true ∧ ∃ Q, s' = s.writeP rd Q
  | .pdbl rd _ => s.cvalid = true ∧ ∃ Q, s' = s.writeP rd Q
  | .smul rd _ _ => s.cvalid = true ∧ ∃ Q, s' = s.writeP rd Q
  | .fmul rd _ _ => s.cvalid = true ∧ ∃ v, s' = s.writeF rd v
  | .finv rd _ => s.cvalid = true ∧ ∃ v, s' = s.writeF rd v
  | .fsqrt rd _ => s.cvalid = true ∧ ∃ v, s' = s.writeF rd v
  | .dlog rd _ _ => s.cvalid = true ∧ ∃ v, s' = s.afterSolver.writeF rd v

theorem State.needCurve_eq_ok_iff (s : State) (c : Curve) :
    s.needCurve = .ok c ↔ s.cvalid = true ∧ c = s.curve := by
  rcases s.needCurve_cases with ⟨h, e⟩ | ⟨h, e⟩ <;> simp [h, e, eq_comm]

/-- Every command ends through `finish`: in a result of its shape, or in a fault raised on
`faultBase` with the command's own word. -/
theorem exec_shape (i : Instr) (s : State) :
    ∃ r, exec i s = (faultBase i s).finish (encode i) r ∧ ∀ s', r = .ok s' → ResultShape i s s' := by
  cases i with
  | fack => exact ⟨_, rfl, fun s' h => (Except.ok.inj h).symm⟩
  | ptZero => exact ⟨_, rfl, fun s' h => (Except.ok.inj h).symm⟩
  | ptSet => exact ⟨_, rfl, fun s' h => (Except.ok.inj h).symm⟩
  | ptGetx => exact ⟨_, rfl, fun s' h => (Except.ok.inj h).symm⟩
  | ptGety => exact ⟨_, rfl, fun s' h => (Except.ok.inj h).symm⟩
  | ptIsz => exact ⟨_, rfl, fun s' h => ⟨_, (Except.ok.inj h).symm⟩⟩
  | ptEq => exact ⟨_, rfl, fun s' h => ⟨_, (Except.ok.inj h).symm⟩⟩
  | crvInit => exact ⟨_, rfl, fun s' h => (State.constructCurve_eq_ok_iff _ _ _).mp h⟩
  | crvSecp => exact ⟨_, rfl, fun s' h => (Except.ok.inj h).symm⟩
  | crvGetp =>
    refine ⟨_, rfl, fun s' h => ?_⟩
    obtain ⟨c, hc, h⟩ := (except_bind_eq_ok_iff _ _ _).mp h
    exact ⟨((State.needCurve_eq_ok_iff _ _).mp hc).1, (Except.ok.inj h).symm⟩
  | ordSet =>
    refine ⟨_, rfl, fun s' h => ?_⟩
    obtain ⟨c, hc, h⟩ := (except_bind_eq_ok_iff _ _ _).mp h
    exact ⟨((State.needCurve_eq_ok_iff _ _).mp hc).1, (Except.ok.inj h).symm⟩
  | haspt =>
    refine ⟨_, rfl, fun s' h => ?_⟩
    obtain ⟨c, hc, h⟩ := (except_bind_eq_ok_iff _ _ _).mp h
    exact ⟨((State.needCurve_eq_ok_iff _ _).mp hc).1, _, (Except.ok.inj h).symm⟩
  | pneg =>
    refine ⟨_, rfl, fun s' h => ?_⟩
    obtain ⟨c, hc, h⟩ := (except_bind_eq_ok_iff _ _ _).mp h
    exact ⟨((State.needCurve_eq_ok_iff _ _).mp hc).1, _, (Except.ok.inj h).symm⟩
  | fmul =>
    refine ⟨_, rfl, fun s' h => ?_⟩
    obtain ⟨c, hc, h⟩ := (except_bind_eq_ok_iff _ _ _).mp h
    exact ⟨((State.needCurve_eq_ok_iff _ _).mp hc).1, _, (Except.ok.inj h).symm⟩
  | ordGet =>
    refine ⟨_, rfl, fun s' h => ?_⟩
    obtain ⟨c, hc, h⟩ := (except_bind_eq_ok_iff _ _ _).mp h
    obtain ⟨v, _, h⟩ := (except_bind_eq_ok_iff _ _ _).mp h
    exact ⟨((State.needCurve_eq_ok_iff _ _).mp hc).1, _, (Except.ok.inj h).symm⟩
  | padd =>
    refine ⟨_, rfl, fun s' h => ?_⟩
    obtain ⟨c, hc, h⟩ := (except_bind_eq_ok_iff _ _ _).mp h
    obtain ⟨v, _, h⟩ := (except_bind_eq_ok_iff _ _ _).mp h
    exact ⟨((State.needCurve_eq_ok_iff _ _).mp hc).1, _, (Except.ok.inj h).symm⟩
  | pdbl =>
    refine ⟨_, rfl, fun s' h => ?_⟩
    obtain ⟨c, hc, h⟩ := (except_bind_eq_ok_iff _ _ _).mp h
    obtain ⟨v, _, h⟩ := (except_bind_eq_ok_iff _ _ _).mp h
    exact ⟨((State.needCurve_eq_ok_iff _ _).mp hc).1, _, (Except.ok.inj h).symm⟩
  | smul =>
    refine ⟨_, rfl, fun s' h => ?_⟩
    obtain ⟨c, hc, h⟩ := (except_bind_eq_ok_iff _ _ _).mp h
    obtain ⟨v, _, h⟩ := (except_bind_eq_ok_iff _ _ _).mp h
    exact ⟨((State.needCurve_eq_ok_iff _ _).mp hc).1, _, (Except.ok.inj h).symm⟩
  | finv =>
    refine ⟨_, rfl, fun s' h => ?_⟩
    obtain ⟨c, hc, h⟩ := (except_bind_eq_ok_iff _ _ _).mp h
    obtain ⟨v, _, h⟩ := (except_bind_eq_ok_iff _ _ _).mp h
    exact ⟨((State.needCurve_eq_ok_iff _ _).mp hc).1, _, (Except.ok.inj h).symm⟩
  | fsqrt =>
    refine ⟨_, rfl, fun s' h => ?_⟩
    obtain ⟨c, hc, h⟩ := (except_bind_eq_ok_iff _ _ _).mp h
    obtain ⟨v, _, h⟩ := (except_bind_eq_ok_iff _ _ _).mp h
    exact ⟨((State.needCurve_eq_ok_iff _ _).mp hc).1, _, (Except.ok.inj h).symm⟩
  | dlog =>
    refine ⟨_, rfl, fun s' h => ?_⟩
    obtain ⟨c, hc, h⟩ := (except_bind_eq_ok_iff _ _ _).mp h
    obtain ⟨v, _, h⟩ := (except_bind_eq_ok_iff _ _ _).mp h
    exact ⟨((State.needCurve_eq_ok_iff _ _).mp hc).1, _, (Except.ok.inj h).symm⟩

/-- If a command answers a next state, that state is a completed result of the command's shape or its
fault base with a fault raised. -/
theorem exec_cases {i : Instr} {s t : State} (h : exec i s = .next t) :
    (∃ s', ResultShape i s s' ∧ t = s'.complete) ∨ ∃ e, t = (faultBase i s).raise e (encode i) := by
  obtain ⟨r, hr, hs⟩ := exec_shape i s
  rw [hr] at h
  rcases (State.finish_eq_next_iff _ _ _ _).mp h with ⟨s', he, ht⟩ | ⟨e, _, ht⟩
  · exact .inl ⟨s', hs s' he, ht⟩
  · exact .inr ⟨e, ht⟩

end Sys2Proof.Machine
end

