-- ==== Sys2Proof/Laws/PerInstr.lean ====
section
/-! SUPPORT. The family EncodesWellFormed: the word of every command passes the three checks of spec
R95. One lemma per constructor. -/

namespace Sys2Proof.Laws.EncodesWellFormed

/-- The word of `i` is well formed (spec R95). -/
def Statement (i : Instr) : Prop := i.wellFormed = true

theorem fack : Statement .fack := show Instr.wellFormed .fack = true by decide
theorem ptZero (rd : PReg) : Statement (.ptZero rd) := by
  simp only [Statement, Instr.wellFormed, encode, ofWord_assemble (show 0x10 < 256 by decide)]; rfl
theorem ptSet (rd : PReg) (rs1 rs2 : FReg) : Statement (.ptSet rd rs1 rs2) := by
  simp only [Statement, Instr.wellFormed, encode, ofWord_assemble (show 0x11 < 256 by decide)]; rfl
theorem ptGetx (rd : FReg) (rs1 : PReg) : Statement (.ptGetx rd rs1) := by
  simp only [Statement, Instr.wellFormed, encode, ofWord_assemble (show 0x12 < 256 by decide)]; rfl
theorem ptGety (rd : FReg) (rs1 : PReg) : Statement (.ptGety rd rs1) := by
  simp only [Statement, Instr.wellFormed, encode, ofWord_assemble (show 0x13 < 256 by decide)]; rfl
theorem ptIsz (rs1 : PReg) : Statement (.ptIsz rs1) := by
  simp only [Statement, Instr.wellFormed, encode, ofWord_assemble (show 0x14 < 256 by decide)]; rfl
theorem ptEq (rs1 rs2 : PReg) : Statement (.ptEq rs1 rs2) := by
  simp only [Statement, Instr.wellFormed, encode, ofWord_assemble (show 0x15 < 256 by decide)]; rfl
theorem crvInit (rs1 : FReg) : Statement (.crvInit rs1) := by
  simp only [Statement, Instr.wellFormed, encode, ofWord_assemble (show 0x20 < 256 by decide)]; rfl
theorem crvSecp : Statement .crvSecp := show Instr.wellFormed .crvSecp = true by decide
theorem crvGetp (rd : FReg) : Statement (.crvGetp rd) := by
  simp only [Statement, Instr.wellFormed, encode, ofWord_assemble (show 0x22 < 256 by decide)]; rfl
theorem ordGet (rd : FReg) : Statement (.ordGet rd) := by
  simp only [Statement, Instr.wellFormed, encode, ofWord_assemble (show 0x23 < 256 by decide)]; rfl
theorem ordSet (rs1 : FReg) : Statement (.ordSet rs1) := by
  simp only [Statement, Instr.wellFormed, encode, ofWord_assemble (show 0x24 < 256 by decide)]; rfl
theorem haspt (rs1 : PReg) : Statement (.haspt rs1) := by
  simp only [Statement, Instr.wellFormed, encode, ofWord_assemble (show 0x28 < 256 by decide)]; rfl
theorem pneg (rd rs1 : PReg) : Statement (.pneg rd rs1) := by
  simp only [Statement, Instr.wellFormed, encode, ofWord_assemble (show 0x29 < 256 by decide)]; rfl
theorem padd (rd rs1 rs2 : PReg) : Statement (.padd rd rs1 rs2) := by
  simp only [Statement, Instr.wellFormed, encode, ofWord_assemble (show 0x2A < 256 by decide)]; rfl
theorem pdbl (rd rs1 : PReg) : Statement (.pdbl rd rs1) := by
  simp only [Statement, Instr.wellFormed, encode, ofWord_assemble (show 0x2B < 256 by decide)]; rfl
theorem smul (rd rs1 : PReg) (rs2 : FReg) : Statement (.smul rd rs1 rs2) := by
  simp only [Statement, Instr.wellFormed, encode, ofWord_assemble (show 0x2C < 256 by decide)]; rfl
theorem fmul (rd rs1 rs2 : FReg) : Statement (.fmul rd rs1 rs2) := by
  simp only [Statement, Instr.wellFormed, encode, ofWord_assemble (show 0x30 < 256 by decide)]; rfl
theorem finv (rd rs1 : FReg) : Statement (.finv rd rs1) := by
  simp only [Statement, Instr.wellFormed, encode, ofWord_assemble (show 0x31 < 256 by decide)]; rfl
theorem fsqrt (rd rs1 : FReg) : Statement (.fsqrt rd rs1) := by
  simp only [Statement, Instr.wellFormed, encode, ofWord_assemble (show 0x32 < 256 by decide)]; rfl
theorem dlog (rd : FReg) (rs1 rs2 : PReg) : Statement (.dlog rd rs1 rs2) := by
  simp only [Statement, Instr.wellFormed, encode, ofWord_assemble (show 0x40 < 256 by decide)]; rfl

end Sys2Proof.Laws.EncodesWellFormed
end

