-- ==== Sys2Proof/Tests/Slice0.lean ====
section
/-! SUPPORT. Tests: the well-formedness smoke tests, the decoding of words written out from the spec's
encoding, small steps with the results of spec 95_test_vectors.md, and for every obligation that has
hypotheses a theorem that shows them met. -/

namespace Sys2Proof.Tests

-- One theorem after the other: many small kernel evaluations at once would each take a thread.
set_option Elab.async false

open Sys2Proof.Machine Sys2Proof.Claims

/-! ### Well-formedness: each check refuses an ill-formed field set (spec R95) -/

theorem test_wf_good : CmdFields.wellFormed ⟨0x31, 1, 2, 0, 0⟩ = true := by decide
theorem test_wf_unknownOpcode : CmdFields.opcodeKnown ⟨0x02, 0, 0, 0, 0⟩ = false ∧
    CmdFields.wellFormed ⟨0x02, 0, 0, 0, 0⟩ = false := by decide
theorem test_wf_zeroFieldSet : CmdFields.zeroClear ⟨0x31, 1, 2, 0, 1⟩ = false ∧
    CmdFields.wellFormed ⟨0x31, 1, 2, 0, 1⟩ = false := by decide
theorem test_wf_unusedRd : CmdFields.unusedClear ⟨0x01, 1, 0, 0, 0⟩ = false ∧
    CmdFields.wellFormed ⟨0x01, 1, 0, 0, 0⟩ = false := by decide
theorem test_wf_unusedRs1 : CmdFields.unusedClear ⟨0x10, 0, 1, 0, 0⟩ = false ∧
    CmdFields.wellFormed ⟨0x10, 0, 1, 0, 0⟩ = false := by decide
theorem test_wf_unusedRs2 : CmdFields.unusedClear ⟨0x31, 1, 2, 1, 0⟩ = false ∧
    CmdFields.wellFormed ⟨0x31, 1, 2, 1, 0⟩ = false := by decide

/-! ### Decoding: the words of spec 95_test_vectors.md section 2.1 -/

theorem test_decode_fack : decode 0x01000000 = .ok .fack := rfl
theorem test_decode_ptZero : decode 0x10500000 = .ok (.ptZero 5) := rfl
theorem test_decode_ptSet : decode 0x11002000 = .ok (.ptSet 0 0 2) := rfl
theorem test_decode_ptGetx : decode 0x12130000 = .ok (.ptGetx 1 3) := rfl
theorem test_decode_ptGety : decode 0x13130000 = .ok (.ptGety 1 3) := rfl
theorem test_decode_ptIsz : decode 0x14030000 = .ok (.ptIsz 3) := rfl
theorem test_decode_ptEq : decode 0x15021000 = .ok (.ptEq 2 1) := rfl
theorem test_decode_crvInit : decode 0x20000000 = .ok (.crvInit 0) := rfl
theorem test_decode_crvSecp : decode 0x21000000 = .ok .crvSecp := rfl
theorem test_decode_crvGetp : decode 0x22400000 = .ok (.crvGetp 4) := rfl
theorem test_decode_ordGet : decode 0x23200000 = .ok (.ordGet 2) := rfl
theorem test_decode_ordSet : decode 0x24020000 = .ok (.ordSet 2) := rfl
theorem test_decode_haspt : decode 0x28030000 = .ok (.haspt 3) := rfl
theorem test_decode_pneg : decode 0x29200000 = .ok (.pneg 2 0) := rfl
theorem test_decode_padd : decode 0x2A312000 = .ok (.padd 3 1 2) := rfl
theorem test_decode_pdbl : decode 0x2B100000 = .ok (.pdbl 1 0) := rfl
theorem test_decode_smul : decode 0x2C201000 = .ok (.smul 2 0 1) := rfl
theorem test_decode_fmul : decode 0x30312000 = .ok (.fmul 3 1 2) := rfl
theorem test_decode_finv : decode 0x31120000 = .ok (.finv 1 2) := rfl
theorem test_decode_fsqrt : decode 0x32210000 = .ok (.fsqrt 2 1) := rfl
theorem test_decode_dlog : decode 0x40101000 = .ok (.dlog 1 0 1) := rfl
theorem test_decode_allOnes : decode 0x2AFFF000 = .ok (.padd 15 15 15) ∧
    decode 0x40FFF000 = .ok (.dlog 15 15 15) := ⟨rfl, rfl⟩
theorem test_decode_unknown : decode 0x00000000 = .error .unknownOpcode ∧
    decode 0xFFFFFFFF = .error .unknownOpcode ∧ decode 0x02000000 = .error .unknownOpcode ∧
    decode 0x16000000 = .error .unknownOpcode ∧ decode 0x25000000 = .error .unknownOpcode ∧
    decode 0x2D000000 = .error .unknownOpcode ∧ decode 0x33000000 = .error .unknownOpcode ∧
    decode 0x41000000 = .error .unknownOpcode := ⟨rfl, rfl, rfl, rfl, rfl, rfl, rfl, rfl⟩
theorem test_decode_zeroField : decode 0x31120001 = .error .zeroFieldSet ∧
    decode 0x2A312800 = .error .zeroFieldSet ∧ decode 0x21000001 = .error .zeroFieldSet :=
  ⟨rfl, rfl, rfl⟩
theorem test_decode_unusedField : decode 0x10010000 = .error .unusedFieldSet ∧
    decode 0x10501000 = .error .unusedFieldSet ∧ decode 0x01100000 = .error .unusedFieldSet ∧
    decode 0x14130000 = .error .unusedFieldSet ∧ decode 0x31121000 = .error .unusedFieldSet ∧
    decode 0x20100000 = .error .unusedFieldSet := ⟨rfl, rfl, rfl, rfl, rfl, rfl⟩
theorem test_encode_examples : encode (.ptSet 0 0 2) = 0x11002000 ∧
    encode (.smul 2 0 1) = 0x2C201000 ∧ encode (.dlog 1 0 1) = 0x40101000 := by decide
theorem test_decodeTableWord : decodeTableWord 32 0x2A312000 = some (.padd 3 1 2) ∧
    decodeTableWord 32 0x31120001 = none := ⟨rfl, rfl⟩

/-! ### Small steps, expected results from spec 95_test_vectors.md -/

/-- A component of the next state, if there is one. -/
def nextIs {α : Type} (o : Host.Outcome State Fault Refusal) (f : State → α) : Option α :=
  match o with
  | .next t => some (f t)
  | .fault _ => none
  | .refused _ => none

/-- IDLE after reset, with the curve `(a, b, p)`, `P0`, `P1`, `P2` and `F0`, `F1`, `F2` set. -/
def onCurveState (a b : Word32) (p : Word256) (P0 P1 P2 : Point) (F0 F1 F2 : Word256) : State :=
  { State.reset with
    ca := a, cb := b, cp := p, cvalid := true
    pregs := ((State.reset.pregs.set 0 P0).set 1 P1).set 2 P2
    fregs := ((State.reset.fregs.set 0 F0).set 1 F1).set 2 F2 }

/-- The toy curve `(0, 7, 37)` with these points and field registers. -/
def toy (P0 P1 P2 : Point) (F0 F1 F2 : Word256) : State := onCurveState 0 7 37 P0 P1 P2 F0 F1 F2

/-- `secp256k1` with `F0` set. -/
def onSecp (F0 : Word256) : State :=
  { onCurveState 0 7 secpP ⟨0, 0⟩ ⟨0, 0⟩ ⟨0, 0⟩ F0 0 0 with cn := secpN, ovalid := true }

/-- The toy curve as a `Curve`. -/
def toyCurve : Curve := ⟨0, 7, 37⟩

/-- The curve `(1, 1, 37)`, which has a point of order 2. -/
def evenCurve : Curve := ⟨1, 1, 37⟩

theorem test_fack_idle : nextIs (exec .fack State.reset) (·.statusWord) = some 0x02 := by
  decide +kernel
theorem test_fack_faulted :
    nextIs (exec .fack (faulted (toy ⟨0, 0⟩ ⟨0, 0⟩ ⟨0, 0⟩ 0 0 0) 3 0x31120000))
      (fun t => (t.statusWord, t.err, t.faultcmd)) = some (0x12, 0, 0) := by decide +kernel
theorem test_ptZero : nextIs (exec (.ptZero 0) (toy ⟨3, 4⟩ ⟨5, 6⟩ ⟨0, 0⟩ 0 0 0))
    (fun t => (t.pregs[0], t.pregs[1])) = some (⟨0, 0⟩, ⟨5, 6⟩) := by decide +kernel
theorem test_ptSet : nextIs (exec (.ptSet 0 0 2) (toy ⟨0, 0⟩ ⟨0, 0⟩ ⟨0, 0⟩ 16 5 12))
    (fun t => t.pregs[0]) = some ⟨16, 12⟩ := by decide +kernel
theorem test_ptGetx : nextIs (exec (.ptGetx 1 2) (toy ⟨0, 0⟩ ⟨0, 0⟩ ⟨23, 36⟩ 0 0 0))
    (fun t => t.fregs[1]) = some 23 := by decide +kernel
theorem test_ptGety : nextIs (exec (.ptGety 1 2) (toy ⟨0, 0⟩ ⟨0, 0⟩ ⟨23, 36⟩ 0 0 0))
    (fun t => t.fregs[1]) = some 36 := by decide +kernel
theorem test_ptIsz_identity : nextIs (exec (.ptIsz 0) State.reset) (·.t) = some true := by
  decide +kernel
theorem test_ptIsz_multipleOfPrime : nextIs (exec (.ptIsz 0) (toy ⟨37, 0⟩ ⟨0, 0⟩ ⟨0, 0⟩ 0 0 0))
    (·.t) = some false := by decide +kernel
theorem test_ptEq_same : nextIs (exec (.ptEq 2 1) (toy ⟨0, 0⟩ ⟨9, 25⟩ ⟨9, 25⟩ 0 0 0))
    (·.t) = some true := by decide +kernel
theorem test_ptEq_congruent : nextIs (exec (.ptEq 1 2) (toy ⟨0, 0⟩ ⟨16, 12⟩ ⟨53, 12⟩ 0 0 0))
    (·.t) = some false := by decide +kernel
theorem test_crvInit : nextIs (exec (.crvInit 0)
      { State.reset with argb := 7, fregs := State.reset.fregs.set 0 37 })
    (fun t => (t.ca, t.cb, t.cp, t.statusWord)) = some (0, 7, 37, 0x12) := by decide +kernel
theorem test_crvInit_singular : nextIs (exec (.crvInit 0)
      { toy ⟨0, 0⟩ ⟨0, 0⟩ ⟨0, 0⟩ 37 0 0 with arga := 0xFFFFFFFD, argb := 0xFFFFFFFE })
    (fun t => (t.err, t.cb, t.statusWord)) = some (1, 7, 0x14) := by decide +kernel
theorem test_crvSecp : nextIs (exec .crvSecp State.reset)
    (fun t => (t.readLoc (.cp 0), t.readLoc (.cp 7), t.readLoc (.cn 0), t.statusWord)) =
      some (0xFFFFFC2F, 0xFFFFFFFF, 0xD0364141, 0x32) := by decide +kernel
theorem test_crvGetp : nextIs (exec (.crvGetp 4) (toy ⟨0, 0⟩ ⟨0, 0⟩ ⟨0, 0⟩ 0 0 0))
    (fun t => t.fregs[4]) = some 37 := by decide +kernel
theorem test_ordGet_counts : nextIs (exec (.ordGet 2) (onCurveState 2 3 5 ⟨0, 0⟩ ⟨0, 0⟩ ⟨0, 0⟩ 0 0 0))
    (fun t => (t.fregs[2], t.cn, t.ovalid)) = some (7, 0, false) := by decide +kernel
theorem test_ordGet_supplied : nextIs (exec (.ordGet 2) (onSecp 0)) (fun t => t.fregs[2]) =
    some secpN := by decide +kernel
theorem test_ordSet : nextIs (exec (.ordSet 2) (toy ⟨0, 0⟩ ⟨0, 0⟩ ⟨0, 0⟩ 0 0 39))
    (fun t => (t.cn, t.statusWord)) = some (39, 0x32) := by decide +kernel
theorem test_haspt_congruent : nextIs (exec (.haspt 0) (toy ⟨53, 12⟩ ⟨0, 0⟩ ⟨0, 0⟩ 0 0 0))
    (·.t) = some true := by decide +kernel
theorem test_haspt_off : nextIs (exec (.haspt 0) (toy ⟨37, 37⟩ ⟨0, 0⟩ ⟨0, 0⟩ 0 0 0))
    (·.t) = some false := by decide +kernel
theorem test_pneg : nextIs (exec (.pneg 2 0) (toy ⟨53, 12⟩ ⟨0, 0⟩ ⟨0, 0⟩ 0 0 0))
    (fun t => t.pregs[2]) = some ⟨53, 25⟩ := by decide +kernel
theorem test_pneg_zero : nextIs (exec (.pneg 2 0) (toy ⟨5, 37⟩ ⟨0, 0⟩ ⟨0, 0⟩ 0 0 0))
    (fun t => t.pregs[2]) = some ⟨5, 0⟩ := by decide +kernel
theorem test_padd : nextIs (exec (.padd 3 1 2) (toy ⟨0, 0⟩ ⟨6, 1⟩ ⟨8, 1⟩ 0 0 0))
    (fun t => t.pregs[3]) = some ⟨23, 36⟩ := by decide +kernel
theorem test_padd_notInvertible : nextIs (exec (.padd 3 1 2) (toy ⟨0, 0⟩ ⟨16, 12⟩ ⟨53, 12⟩ 0 0 0))
    (fun t => (t.err, t.faultcmd)) = some (3, 0x2A312000) := by decide +kernel
theorem test_pdbl : nextIs (exec (.pdbl 0 0) (toy ⟨16, 12⟩ ⟨0, 0⟩ ⟨0, 0⟩ 0 0 0))
    (fun t => t.pregs[0]) = some ⟨30, 21⟩ := by decide +kernel
theorem test_pdbl_vertical : nextIs (exec (.pdbl 1 0) (toy ⟨5, 37⟩ ⟨0, 0⟩ ⟨0, 0⟩ 0 0 0))
    (fun t => t.err) = some 3 := by decide +kernel
theorem test_smul : nextIs (exec (.smul 0 0 1) (toy ⟨16, 12⟩ ⟨0, 0⟩ ⟨0, 0⟩ 0 17 0))
    (fun t => t.pregs[0]) = some ⟨9, 25⟩ := by decide +kernel
theorem test_smul_lastDoubling : nextIs (exec (.smul 2 0 1) (onCurveState 1 1 37 ⟨25, 0⟩ ⟨0, 0⟩ ⟨0, 0⟩
    0 1 0)) (fun t => t.err) = some 3 := by decide +kernel
theorem test_fmul : nextIs (exec (.fmul 3 1 2) (toy ⟨0, 0⟩ ⟨0, 0⟩ ⟨0, 0⟩ 0 6 8))
    (fun t => t.fregs[3]) = some 11 := by decide +kernel
theorem test_fmul_wide : nextIs (exec (.fmul 3 1 1) (toy ⟨0, 0⟩ ⟨0, 0⟩ ⟨0, 0⟩ 0 (-1) 0))
    (fun t => t.fregs[3]) = some 3 := by decide +kernel
theorem test_finv_same : nextIs (exec (.finv 1 1) (toy ⟨0, 0⟩ ⟨0, 0⟩ ⟨0, 0⟩ 0 10 0))
    (fun t => t.fregs[1]) = some 26 := by decide +kernel
theorem test_finv_secp : nextIs (exec (.finv 1 0) (onSecp 2)) (fun t => t.fregs[1]) =
    some 0x7FFFFFFFFFFFFFFFFFFFFFFFFFFFFFFFFFFFFFFFFFFFFFFFFFFFFFFF7FFFFE18 := by decide +kernel
theorem test_fsqrt : nextIs (exec (.fsqrt 2 1) (onCurveState 0 7 43 ⟨0, 0⟩ ⟨0, 0⟩ ⟨0, 0⟩ 0 4 0))
    (fun t => t.fregs[2]) = some 41 := by decide +kernel
theorem test_fsqrt_modulus : nextIs (exec (.fsqrt 2 1) (toy ⟨0, 0⟩ ⟨0, 0⟩ ⟨0, 0⟩ 0 0 0))
    (fun t => t.err) = some 4 := by decide +kernel
theorem test_dlog_worked :
    discreteLogarithm toyCurve none 3 [] ⟨16, 12⟩ ⟨9, 25⟩ = .ok 17 := by decide +kernel
theorem test_dlog_memoryLimit :
    discreteLogarithm toyCurve none 2 [] ⟨16, 12⟩ ⟨9, 25⟩ = .error .searchExhausted := by
  decide +kernel
theorem test_ceilSqrt_secp : ceilSqrt secpN.toNat = 2 ^ 128 := by decide +kernel

/-! ### The port and the step (spec 95_test_vectors.md section 2.8) -/

/-- From reset with one host event pending: what the step returns to the host. -/
def replyTo (e : Input) : Option Reply :=
  nextIs (step { State.reset with inputs := [e] }) (·.reply)

theorem test_port_status : replyTo (.read 0x004 4) = some (.read .ok 0) := by decide +kernel
theorem test_port_refusedWrites : replyTo (.write 0x004 4 1) = some (.write .error) ∧
    replyTo (.write 0x040 4 1) = some (.write .error) ∧
    replyTo (.write 0x010 2 1) = some (.write .error) := by decide +kernel
theorem test_port_topWord : nextIs (step { State.reset with inputs := [.write 0x7FC 4 0x80000001] })
    (fun t => (t.reply, t.pregs[15])) = some (.write .ok, ⟨0, 0x80000001 <<< 224⟩) := by decide +kernel
theorem test_port_faultedWrite :
    nextIs (step { faulted State.reset 7 0x31100000 with inputs := [.write 0x200 4 5] })
      (fun t => (t.reply, t.fregs[0])) = some (.write .error, 0) := by decide +kernel
theorem test_step_firstCommand : nextIs (step (State.reset.withFetchWord 32 0x31100000))
    (fun t => (t.statusWord, t.err, t.faultcmd)) = some (0x04, 7, 0x31100000) := by decide +kernel
theorem test_step_illegalFirst : nextIs (step (State.reset.withFetchWord 32 0x31120001))
    (fun t => (t.statusWord, t.err, t.faultcmd)) = some (0x04, 6, 0x31120001) := by decide +kernel

/-! ### Witnesses: the hypotheses of each obligation met together, clause by clause -/

/-- A toy state with three points and three field registers in use. -/
def sample : State := toy ⟨16, 12⟩ ⟨16, 12⟩ ⟨9, 25⟩ 37 17 10

theorem witness_DecodeFollowsOpcodeTable :
    (∃ r ∈ opcodeTable, (0x2AFFF000 : Word32) &&& r.mask = r.pattern) ∧
    ∀ r ∈ opcodeTable, (0x2A312800 : Word32) &&& r.mask ≠ r.pattern := by decide +kernel

theorem witness_IllegalWordsFault :
    (let s : State := { sample with mode := .busy 0x31120001 }
     s.mode = .busy 0x31120001 ∧ s.inputs = []) ∧
    (let s : State := { sample with mode := .busy 0x31120001, inputs := [.engine, .read 4 4] }
     s.mode = .busy 0x31120001 ∧ s.inputs = .engine :: [.read 4 4]) ∧
    (CmdFields.ofWord 0x31120001).wellFormed = false ∧
    (CmdFields.ofWord 0x31120000).wellFormed = true := by decide +kernel

/-- A decodable word in flight; the undecodable one is that of `witness_IllegalWordsFault`. -/
theorem witness_StepRunsDecodedCommand : decode 0x31120000 = .ok (.finv 1 2) ∧
    (let s : State := { sample with mode := .busy 0x31120000 }
     s.mode = .busy 0x31120000 ∧ s.inputs = []) ∧
    (let s : State := { sample with mode := .busy 0x31120000, inputs := [.engine, .read 4 4] }
     s.mode = .busy 0x31120000 ∧ s.inputs = .engine :: [.read 4 4]) :=
  ⟨rfl, ⟨rfl, rfl⟩, rfl, rfl⟩

/-- `sample` in a mode, with one host event pending. -/
def pending (mode : Mode) (e : Input) : State := { sample with mode := mode, inputs := [e] }

theorem witness_CmdWriteIssuesCommand :
    (∀ m : Mode, (pending m (.write 0 4 0x01000000)).inputs = .write 0 4 0x01000000 :: [] ∧
      (pending m (.write 0 4 0x01000000)).mode = m) ∧
    (pending .faulted (.write 0 4 0x31120000)).inputs = .write 0 4 0x31120000 :: [] ∧
    (0x31120000 : Word32) ≠ 0x01000000 := ⟨fun _ => ⟨rfl, rfl⟩, rfl, by decide⟩

/-- Boundaries of the map: its last word, the last word before a hole, an unmapped word, a misaligned
address, the first address outside, and a narrow access. -/
theorem witness_ReadsReturnTheMapAndChangeNothing :
    (∀ m a w, (pending m (.read a w)).inputs = .read a w :: [] ∧ (pending m (.read a w)).mode = m) ∧
    0x7FC = address (.py 15 7) ∧ 0x07C = address (.cn 7) ∧
    (∀ l, 0x024 ≠ address l) ∧ (∀ l, 0x002 ≠ address l) ∧ (∀ l, 0x800 ≠ address l) ∧
    (2 : Nat) ≠ 4 := by
  have none_at : ∀ a, locate a = none → ∀ l, a ≠ address l := fun a h l e => by
    subst e
    cases l <;> revert h <;> decide +revert +kernel
  exact ⟨fun _ _ _ => ⟨rfl, rfl⟩, rfl, rfl, none_at _ rfl, none_at _ rfl, none_at _ rfl, by decide⟩

theorem witness_WritesReplaceOneWord :
    (pending .idle (.write (address (.py 15 7)) 4 0xFFFFFFFF)).inputs =
      .write (address (.py 15 7)) 4 0xFFFFFFFF :: [] ∧
    (pending .idle (.write (address (.py 15 7)) 4 0xFFFFFFFF)).mode = .idle ∧
    readWrite (.py 15 7) ∧ readWrite .arga ∧ readWrite .argb ∧ readWrite (.f 0 0) ∧
    readWrite (.px 15 0) := by
  simp [readWrite, pending]

theorem witness_RefusedTransactionsChangeNothing :
    (∀ m e, (pending m e).inputs = e :: [] ∧ (pending m e).mode = m) ∧
    (1 : Nat) ≠ 4 ∧ (∀ l, 0x024 ≠ address l) ∧ (0x07C = address (.cn 7) ∧ ¬ readWrite (.cn 7) ∧
      Loc.cn 7 ≠ .cmd) ∧
    ¬ ((0x010 : Nat) = 0 ∧ (0 : Word32) = 0x01000000) ∧
    ¬ ((0 : Nat) = 0 ∧ (0x10100000 : Word32) = 0x01000000) := by
  refine ⟨fun _ _ => ⟨rfl, rfl⟩, by decide, ?_, ⟨rfl, by simp [readWrite], by decide⟩, by decide,
    by decide⟩
  exact witness_ReadsReturnTheMapAndChangeNothing.2.2.2.1

theorem witness_RegisterMapHasNoAliases : locate 0x7FC = some (.py 15 7) ∧ locate 0 = some .cmd :=
  ⟨rfl, rfl⟩

theorem witness_StatusWhileBusy :
    (pending (.busy 0x14000000) (.read 4 4)).mode = .busy 0x14000000 ∧
    (pending (.busy 0x14000000) (.read 4 4)).inputs = .read 4 4 :: [] ∧
    ∃ after, engineStep { pending (.busy 0x14000000) (.read 4 4) with inputs := [] } = .next after :=
  ⟨rfl, rfl, _, rfl⟩

theorem witness_MemlimReadsTheLimit :
    (pending .idle (.read 0x020 4)).mode = .idle ∧ (pending .faulted (.read 0x020 4)).mode = .faulted ∧
    ∀ m, (pending m (.read 0x020 4)).inputs = .read 0x020 4 :: [] := ⟨rfl, rfl, fun _ => rfl⟩

theorem witness_ResetFromAnyMode :
    (pending (.busy 0x40101000) .reset).inputs = .reset :: [] := rfl

/-- The invariant with a curve, a supplied order and a command in flight, and a step from there. -/
theorem witness_StepKeepsInvariant :
    ({ onSecp 2 with mode := .busy 0x31100000 } : State).Inv ∧
    ∃ t, step { onSecp 2 with mode := .busy 0x31100000 } = .next t :=
  ⟨⟨by decide +kernel, by decide +kernel, by decide +kernel, by decide +kernel, by decide +kernel,
    by decide +kernel, by decide +kernel, by decide +kernel, by decide +kernel,
    ⟨List.nodup_nil, by decide, Nat.zero_le _⟩⟩, _, rfl⟩

theorem witness_EveryStepAnswersNext :
    (pending (.busy 0xFFFFFFFF) .engine).mode = .busy 0xFFFFFFFF := rfl

theorem witness_FaultsArePrecise : (∃ t, exec (.pdbl 1 0) sample = .next t ∧ t.done = true) ∧
    (∃ t, exec (.pdbl 1 0) (toy ⟨5, 37⟩ ⟨0, 0⟩ ⟨0, 0⟩ 0 0 0) = .next t ∧ t.done = false ∧
      isDlog (.pdbl 1 0) = false) ∧
    (let s := pending (.busy 0x31120001) .engine
     s.mode = .busy 0x31120001 ∧ (∃ t, engineStep s = .next t ∧ t.done = false) ∧
       ∀ i, decode 0x31120001 = .ok i → isDlog i = false) :=
  ⟨⟨_, rfl, by decide +kernel⟩, ⟨_, rfl, by decide +kernel, rfl⟩, rfl, ⟨_, rfl, rfl⟩,
    fun _ h => nomatch h⟩

theorem witness_NoCurveFaultsFirst :
    needsCurve (.dlog 15 15 15) = true ∧ State.reset.cvalid = false := by decide

theorem witness_FaultsFollowTheTable : (∃ t, exec (.smul 2 0 0) (toy ⟨16, 12⟩ ⟨0, 0⟩ ⟨0, 0⟩ 0 0 0) =
    .next t ∧ t.mode = .faulted ∧ t.err = FaultCode.invalidInput.number) ∧
    ∃ t, exec (.finv 1 0) State.reset = .next t ∧ t.mode = .faulted ∧
      t.err = FaultCode.noCurve.number :=
  ⟨⟨_, rfl, by decide +kernel, by decide +kernel⟩, _, rfl, rfl, rfl⟩

theorem witness_FaultedIsLeftByFackOrResetOnly :
    ∀ e ∈ [Input.write 0 4 0x01000000, .write 0 4 0x31120000, .read 0x7FC 4, .reset, .engine],
      (pending .faulted e).mode = .faulted ∧ (nextIs (step (pending .faulted e)) (·.t)).isSome = true := by
  decide +kernel

theorem witness_CommandsChangeOnlyTheirDestination :
    (∃ t, exec (.finv 1 2) sample = .next t) ∧ destF (.finv 1 2) ≠ some 2 ∧
    destP (.finv 1 2) ≠ some 0 ∧ isPredicate (.finv 1 2) = false ∧
    isConstruction (.finv 1 2) = false ∧ writesOrder (.finv 1 2) = false ∧
    isDlog (.finv 1 2) = false := ⟨⟨_, rfl⟩, by decide⟩

theorem witness_TestFlagChangesOnlyByPredicates :
    (∃ t, step (pending (.busy 0x15001000) .engine) = .next t ∧
      t.t ≠ (pending (.busy 0x15001000) .engine).t) ∧
    ∃ t, step { pending .idle .reset with t := true } = .next t ∧ t.t ≠ true :=
  ⟨⟨_, rfl, by decide +kernel⟩, _, rfl, by decide +kernel⟩

theorem witness_CurveChangesOnlyByConstruction :
    (∃ t, step (pending (.busy 0x21000000) .engine) = .next t ∧
      ¬ (t.ca = sample.ca ∧ t.cb = sample.cb ∧ t.cp = sample.cp ∧ t.cvalid = sample.cvalid)) ∧
    ∃ t, step (pending .idle .reset) = .next t ∧
      ¬ (t.ca = sample.ca ∧ t.cb = sample.cb ∧ t.cp = sample.cp ∧ t.cvalid = sample.cvalid) :=
  ⟨⟨_, rfl, by decide +kernel⟩, _, rfl, by decide +kernel⟩

theorem witness_TableIsPrivateToDlog :
    ((∃ t, exec (.finv 1 2) sample = .next t) ∧ isDlog (.finv 1 2) = false) ∧
    (∃ t, exec (.dlog 1 0 2) sample = .next t) ∧ isDlog (.dlog 1 0 2) = true ∧
      sample.cvalid = true := by
  refine ⟨⟨⟨_, rfl⟩, rfl⟩, ?_, rfl, rfl⟩
  obtain ⟨r, hr, -⟩ := exec_shape (.dlog 1 0 2) sample
  cases r with
  | ok u => exact ⟨_, hr⟩
  | error e => exact ⟨_, hr⟩

theorem witness_CurveInitConstructsOrFaults :
    State.reset.fregs[(0 : Fin 16)] = 0 ∧
    (let s : State := { sample with arga := 0xFFFFFFFD, argb := 2 }
     s.fregs[(0 : Fin 16)] ≠ 0 ∧ 4 * s.arga.toInt ^ 3 + 27 * s.argb.toInt ^ 2 = 0) ∧
    (let s : State := { sample with argb := 7 }
     s.fregs[(0 : Fin 16)] ≠ 0 ∧ 4 * s.arga.toInt ^ 3 + 27 * s.argb.toInt ^ 2 ≠ 0) := by
  decide +kernel

theorem witness_PrimeRead : State.reset.cvalid = false ∧ sample.cvalid = true := by decide

theorem witness_OrderSupply : (State.reset.cvalid = false ∧ sample.cvalid = true) ∧
    (∃ t, step (pending (.busy 0x24020000) .engine) = .next t ∧
      ¬ (t.cn = sample.cn ∧ t.ovalid = sample.ovalid)) ∧
    ∃ t, step { onSecp 0 with inputs := [.reset] } = .next t ∧
      ¬ (t.cn = (onSecp 0).cn ∧ t.ovalid = (onSecp 0).ovalid) :=
  ⟨by decide, ⟨_, rfl, by decide +kernel⟩, _, rfl, by decide +kernel⟩

/-- The state of the E_RANGE clause: `p = 2^255` and the congruence `y^2 = x^3`. -/
def manySolutions : State := onCurveState 0 0 (1#256 <<< 255) ⟨0, 0⟩ ⟨0, 0⟩ ⟨0, 0⟩ 0 0 0

theorem witness_OrderGetReadsOrCounts_range : manySolutions.cvalid = true ∧ manySolutions.ovalid = false ∧
    2 ^ 256 ≤ 1 + (affineSolutions manySolutions.curve).card := by
  refine ⟨rfl, rfl, ?_⟩
  have hc : manySolutions.curve = ⟨0, 0, 2 ^ 255⟩ := by decide +kernel
  rw [hc]
  obtain ⟨A, hA⟩ : ∃ A, A = 2 ^ 85 := ⟨_, rfl⟩
  obtain ⟨B, hB⟩ : ∃ B, B = 2 ^ 128 := ⟨_, rfl⟩
  obtain ⟨m, hm⟩ : ∃ m, m = 2 ^ 170 := ⟨_, rfl⟩
  obtain ⟨k, hk⟩ : ∃ k, k = 2 ^ 127 := ⟨_, rfl⟩
  obtain ⟨p, hp⟩ : ∃ p, p = 2 ^ 255 := ⟨_, rfl⟩
  have hAm : A * m = p := by subst hA hm hp; norm_num
  have hBk : B * k = p := by subst hB hk hp; norm_num
  have hA3 : A * A * A = p := by subst hA hp; norm_num
  have hB2 : B * B = 2 * p := by subst hB hp; norm_num
  have hmk : 2 ^ 256 ≤ m * k := by subst hm hk; norm_num
  have hA0 : 0 < A := by subst hA; norm_num
  have hB0 : 0 < B := by subst hB; norm_num
  rw [← hp]
  clear hA hB hm hk hp hc
  have hsub : ((Finset.range m ×ˢ Finset.range k).image (fun q : Nat × Nat => (A * q.1, B * q.2))) ⊆
      affineSolutions ⟨0, 0, p⟩ := by
    intro q hq
    simp only [Finset.mem_image, Finset.mem_product, Finset.mem_range] at hq
    obtain ⟨⟨u, v⟩, ⟨hu, hv⟩, rfl⟩ := hq
    simp only [affineSolutions, Finset.mem_filter, Finset.mem_product, Finset.mem_range]
    refine ⟨⟨hAm ▸ Nat.mul_lt_mul_of_pos_left hu hA0, hBk ▸ Nat.mul_lt_mul_of_pos_left hv hB0⟩,
      Int.emod_eq_zero_of_dvd ⟨2 * (v : Int) * v - u * u * u, ?_⟩⟩
    have h3 : (A : Int) * A * A = p := by exact_mod_cast hA3
    have h2 : (B : Int) * B = 2 * p := by exact_mod_cast hB2
    push_cast
    linear_combination (v : Int) * v * h2 - (u : Int) * u * u * h3
  have hinj : Function.Injective (fun q : Nat × Nat => (A * q.1, B * q.2)) := by
    rintro ⟨a, b⟩ ⟨c, d⟩ h
    obtain ⟨h1, h2⟩ := Prod.mk.inj h
    exact Prod.ext (Nat.eq_of_mul_eq_mul_left hA0 h1) (Nat.eq_of_mul_eq_mul_left hB0 h2)
  have hcard := Finset.card_le_card hsub
  rw [Finset.card_image_of_injective _ hinj, Finset.card_product, Finset.card_range,
    Finset.card_range] at hcard
  exact hmk.trans (hcard.trans (Nat.le_add_left _ 1))

theorem witness_OrderGetReadsOrCounts : State.reset.cvalid = false ∧
    ((onSecp 0).cvalid = true ∧ (onSecp 0).ovalid = true) ∧
    (sample.cvalid = true ∧ sample.ovalid = false ∧
      1 + (affineSolutions sample.curve).card < 2 ^ 256) := by
  refine ⟨rfl, ⟨rfl, rfl⟩, rfl, rfl, ?_⟩
  have h := Finset.card_le_card (Finset.filter_subset (fun q : Nat × Nat =>
    ((q.2 : Int) * q.2 - ((q.1 : Int) * q.1 * q.1 + sample.curve.a * q.1 + sample.curve.b)) %
      (sample.curve.p : Int) = 0) (Finset.range sample.curve.p ×ˢ Finset.range sample.curve.p))
  rw [Finset.card_product, Finset.card_range] at h
  have hp : sample.curve.p = 37 := by decide +kernel
  rw [hp] at h
  unfold affineSolutions
  rw [hp]
  omega

theorem witness_ModexpIsTheReducedPower : 1 ≤ 1 ∧ (modexp 0 0 1 : Int) = 0 ∧
    (modexp 0 0 2 : Int) = 1 := by decide

theorem witness_FieldProduct : State.reset.cvalid = false ∧ sample.cvalid = true ∧ sample.cp ≠ 0 := by
  decide

theorem witness_FieldInverse : State.reset.cvalid = false ∧ sample.cvalid = true ∧ sample.cp ≠ 0 ∧
    sample.fregs[(0 : Fin 16)].toNat % sample.cp.toNat = 0 ∧
    sample.fregs[(1 : Fin 16)].toNat % sample.cp.toNat ≠ 0 := by decide +kernel

theorem prime_37 : Nat.Prime 37 := by norm_num

/-- `sample` with the prime 43, `F0 = 37`, `F1 = 17` a square modulo 43 and `F2 = 10`. -/
def sample43 : State := { sample with cp := 43 }

theorem prime_43 : Nat.Prime 43 := by norm_num

theorem witness_FieldInverseIsTheInverse : sample.cvalid = true ∧ sample.cp.toNat.Prime ∧
    sample.fregs[(1 : Fin 16)].toNat % sample.cp.toNat ≠ 0 :=
  ⟨rfl, prime_37, by decide +kernel⟩

theorem witness_FieldSquareRoot : State.reset.cvalid = false ∧
    (sample.cvalid = true ∧ sample.cp.toNat % 4 ≠ 3) ∧
    (sample43.cvalid = true ∧ sample43.cp.toNat % 4 = 3) := by decide +kernel

theorem witness_SquareRootSquaresBack : sample43.cvalid = true ∧ sample43.cp.toNat.Prime ∧
    sample43.cp.toNat % 4 = 3 ∧
    (∃ y : Nat, y * y % sample43.cp.toNat = sample43.fregs[(1 : Fin 16)].toNat % sample43.cp.toNat) ∧
    ¬ ∃ y : Nat, y * y % sample43.cp.toNat = sample43.fregs[(0 : Fin 16)].toNat % sample43.cp.toNat := by
  have hp : sample43.cp.toNat = 43 := by decide +kernel
  have h0 : sample43.fregs[(0 : Fin 16)].toNat = 37 := by decide +kernel
  have h1 : sample43.fregs[(1 : Fin 16)].toNat = 17 := by decide +kernel
  rw [hp, h0, h1]
  refine ⟨rfl, prime_43, rfl, ⟨19, by norm_num⟩, ?_⟩
  rintro ⟨y, hy⟩
  have h : ∀ r : Fin 43, r.val * r.val % 43 ≠ 37 % 43 := by decide +kernel
  exact h ⟨y % 43, Nat.mod_lt _ (by decide)⟩ (by rw [← hy]; simp [Nat.mul_mod])

theorem witness_CeilSqrtIsLeast : (39 : Nat) ≤ 7 * 7 ∧ 39 < 2 ^ 256 ∧ ceilSqrt 39 = 7 := by
  decide +kernel

theorem witness_MembershipTest : State.reset.cvalid = false ∧ sample.cvalid = true ∧
    sample.cp ≠ 0 := witness_FieldProduct

theorem witness_PointNegation : State.reset.cvalid = false ∧ sample.cvalid = true ∧ sample.cp ≠ 0 ∧
    sample.pregs[(3 : Fin 16)].y.toNat % sample.cp.toNat = 0 ∧
    sample.pregs[(0 : Fin 16)].y.toNat % sample.cp.toNat ≠ 0 := by decide +kernel

/-- The toy curve with `P0 = (5, 37)`, whose tangent is vertical, and `P1 = (42, 1)`, whose `x` is
congruent to that of `P0`; `P2 = (9, 25)`. -/
def awkward : State := toy ⟨5, 37⟩ ⟨42, 1⟩ ⟨9, 25⟩ 0 0 0

theorem witness_PointDoubling : State.reset.cvalid = false ∧ awkward.cvalid = true ∧ awkward.cp ≠ 0 ∧
    (awkward.pregs[(3 : Fin 16)].x = 0 ∧ awkward.pregs[(3 : Fin 16)].y = 0) ∧
    (¬ ((awkward.pregs[(0 : Fin 16)].x.toNat : Int) = 0 ∧
        (awkward.pregs[(0 : Fin 16)].y.toNat : Int) = 0) ∧
      (awkward.cp.toNat : Int) ∣ 2 * (awkward.pregs[(0 : Fin 16)].y.toNat : Int)) ∧
    (¬ ((awkward.pregs[(2 : Fin 16)].x.toNat : Int) = 0 ∧
        (awkward.pregs[(2 : Fin 16)].y.toNat : Int) = 0) ∧
      ¬ (awkward.cp.toNat : Int) ∣ 2 * (awkward.pregs[(2 : Fin 16)].y.toNat : Int)) := by
  decide +kernel

/-- One pair of registers for each case of the sum, in the statement's order; `P4` and `P5` hold
points with equal `x` and different `y`. -/
theorem witness_PointAddition :
    let s : State := { awkward with pregs := (awkward.pregs.set 4 ⟨9, 12⟩).set 5 ⟨9, 25⟩ }
    let P : Fin 16 → Point := fun i => s.pregs[i]
    State.reset.cvalid = false ∧ s.cvalid = true ∧ s.cp ≠ 0 ∧ P 3 = ⟨0, 0⟩ ∧ P 0 ≠ ⟨0, 0⟩ ∧
    (P 0 = P 0 ∧ (s.cp.toNat : Int) ∣ 2 * ((P 0).y.toNat : Int)) ∧
    (P 2 ≠ ⟨0, 0⟩ ∧ P 2 = P 5 ∧ ¬ (s.cp.toNat : Int) ∣ 2 * ((P 2).y.toNat : Int)) ∧
    (P 4 ≠ ⟨0, 0⟩ ∧ (P 2).x = (P 4).x ∧ (P 2).y ≠ (P 4).y) ∧
    (P 1 ≠ ⟨0, 0⟩ ∧ (P 0).x ≠ (P 1).x ∧
      (s.cp.toNat : Int) ∣ ((P 0).x.toNat : Int) - ((P 1).x.toNat : Int)) ∧
    ((P 0).x ≠ (P 2).x ∧ ¬ (s.cp.toNat : Int) ∣ ((P 0).x.toNat : Int) - ((P 2).x.toNat : Int)) := by
  decide +kernel

/-- `SMUL` by 1 on the toy curve, and by 1 on a point of order 2, whose last doubling faults. -/
theorem witness_ScalarMultiplication :
    (State.reset.cvalid = false ∧ sample.cvalid = true ∧ sample.fregs[(3 : Fin 16)] = 0 ∧
      sample.fregs[(1 : Fin 16)] ≠ 0) ∧
    ScalarWhile toyCurve ⟨0, 0⟩ ⟨16, 12⟩ 1 (.ok ⟨16, 12⟩) ∧
    ScalarWhile evenCurve ⟨0, 0⟩ ⟨25, 0⟩ 1 (.error .notInvertible) := by
  refine ⟨by decide +kernel, ?_, ?_⟩
  · exact .oddDigit _ _ ⟨16, 12⟩ ⟨30, 21⟩ _ _ rfl (by decide +kernel) (by decide +kernel)
      (.finished _ _)
  · exact .oddDoubleRaises _ _ ⟨25, 0⟩ _ _ rfl (by decide +kernel) (by decide +kernel)

theorem witness_ScalarMultipleOfIdentity : sample.cvalid = true ∧ sample.fregs[(1 : Fin 16)] ≠ 0 ∧
    sample.pregs[(15 : Fin 16)] = ⟨0, 0⟩ := by decide +kernel

theorem toyCurve_supported : Supported toyCurve :=
  ⟨prime_37, by decide, by decide, by decide, by decide⟩

theorem evenCurve_supported : Supported evenCurve :=
  ⟨prime_37, by decide, by decide, by decide, by decide⟩

theorem valid_toy_G : Valid toyCurve ⟨16, 12⟩ := .inr (by decide +kernel)
theorem valid_toy_Pt : Valid toyCurve ⟨9, 25⟩ := .inr (by decide +kernel)
theorem valid_toy_identity : Valid toyCurve ⟨0, 0⟩ := .inl ⟨rfl, rfl⟩
theorem valid_even_order2 : Valid evenCurve ⟨25, 0⟩ := .inr (by decide +kernel)

theorem witness_GroupLawKeepsValidity : Supported toyCurve ∧ Valid toyCurve ⟨16, 12⟩ ∧
    Valid toyCurve ⟨9, 25⟩ ∧ add toyCurve ⟨16, 12⟩ ⟨9, 25⟩ = .ok ⟨23, 1⟩ ∧
    double toyCurve ⟨16, 12⟩ = .ok ⟨30, 21⟩ :=
  ⟨toyCurve_supported, valid_toy_G, valid_toy_Pt, by decide +kernel, by decide +kernel⟩

theorem witness_AdditionCommutes : Supported evenCurve ∧ Valid evenCurve ⟨25, 0⟩ :=
  ⟨evenCurve_supported, valid_even_order2⟩

theorem witness_PointPlusItsNegative : (Supported toyCurve ∧ Valid toyCurve ⟨16, 12⟩ ∧
      (Point.mk 16 12).y ≠ 0) ∧
    (Supported evenCurve ∧ Valid evenCurve ⟨25, 0⟩ ∧ (Point.mk 25 0).y = 0 ∧ (Point.mk 25 0).x ≠ 0) :=
  ⟨⟨toyCurve_supported, valid_toy_G, by decide⟩, evenCurve_supported, valid_even_order2, rfl, by decide⟩

theorem witness_ScalarMultiplyIsRepeatedAddition : Supported toyCurve ∧ Valid toyCurve ⟨16, 12⟩ ∧
    scalarMultiply toyCurve ⟨16, 12⟩ (16 + 1) = .ok ⟨9, 25⟩ ∧
    repeatedAdd toyCurve ⟨16, 12⟩ 16 = .ok ⟨9, 25⟩ :=
  ⟨toyCurve_supported, valid_toy_G, by decide +kernel, by decide +kernel⟩

/-- A base of order 3: the fourth baby step repeats the first key, so only three are kept. -/
theorem witness_TableHoldsSmallestIndices : babySteps toyCurve ⟨0, 28⟩ 4 1 [] =
    .ok [(⟨0, 0⟩, 3), (⟨0, 9⟩, 2), (⟨0, 28⟩, 1)] := by decide +kernel

/-- The toy curve with the supplied order `n`, `P0 = (16, 12)` and `P1 = Pt`. -/
def solving (n : Word256) (Pt : Point) : State :=
  { toy ⟨16, 12⟩ Pt ⟨0, 0⟩ 0 0 0 with cn := n, ovalid := true }

theorem babyCount_le (n : Nat) : babyCount n ≤ ceilSqrt n := Nat.min_le_left _ _

theorem one_le_memoryLimit : 1 ≤ Config.memoryLimit := Nat.le_add_left 1 _

theorem ceilSqrt_39 : ceilSqrt 39 = 7 := by decide +kernel

theorem babyCount_39_le : babyCount 39 ≤ 7 := ceilSqrt_39 ▸ babyCount_le 39

theorem one_le_babyCount_39 : 1 ≤ babyCount 39 := by
  rw [babyCount, ceilSqrt_39]
  exact Nat.le_min.mpr ⟨by decide, one_le_memoryLimit⟩

/-- For every `MEMORY_LIMIT`: `Pt = 15 G`; giant step 1 misses (its probe is `8 G`), giant step 2 hits
baby step 1. -/
theorem witness_DlogReturnsTheFirstHit :
    SearchEntered (solving 39 ⟨8, 1⟩) ⟨16, 12⟩ ⟨8, 1⟩ 39 ∧
    (solving 39 ⟨8, 1⟩).pregs[(0 : Fin 16)] = ⟨16, 12⟩ ∧
    (solving 39 ⟨8, 1⟩).pregs[(1 : Fin 16)] = ⟨8, 1⟩ ∧
    (∀ i', 1 ≤ i' → i' < 2 → MissAt (solving 39 ⟨8, 1⟩).curve ⟨16, 12⟩ ⟨8, 1⟩ 39 i') ∧
    HitAt (solving 39 ⟨8, 1⟩).curve ⟨16, 12⟩ ⟨8, 1⟩ 39 2 1 := by
  have hc : (solving 39 ⟨8, 1⟩).curve = toyCurve := by decide +kernel
  refine ⟨⟨rfl, ?_, ?_, ?_, ?_⟩, by decide +kernel, by decide +kernel, ?_, ?_⟩
  · rw [hc]; decide +kernel
  · rw [hc]; decide +kernel
  · rw [hc]; decide +kernel
  · intro j h1 hj
    have h7 := hj.trans babyCount_39_le
    have all : ∀ k : Fin 8, 1 ≤ k.val → (scalarMultiply toyCurve ⟨16, 12⟩ k.val).toOption.isSome = true := by
      decide +kernel
    have hj' := all ⟨j, by omega⟩ h1
    rw [hc]
    cases e : scalarMultiply toyCurve ⟨16, 12⟩ j with
    | ok K => exact ⟨K, rfl⟩
    | error x =>
      change (scalarMultiply toyCurve ⟨16, 12⟩ j).toOption.isSome = true at hj'
      rw [e] at hj'
      cases hj'
  · intro i' h1 h2
    obtain rfl : i' = 1 := by omega
    rw [hc]
    refine ⟨⟨4, 16⟩, ⟨4, 16⟩, ⟨13, 24⟩, ?_, by decide +kernel, by decide +kernel, ?_⟩
    · rw [ceilSqrt_39]; decide +kernel
    · intro j h1 hj
      have h7 := hj.trans babyCount_39_le
      have all : ∀ k : Fin 8, 1 ≤ k.val → scalarMultiply toyCurve ⟨16, 12⟩ k.val ≠ .ok ⟨13, 24⟩ := by
        decide +kernel
      exact all ⟨j, by omega⟩ h1
  · rw [hc]
    refine ⟨by decide, ?_, by decide, one_le_babyCount_39, ⟨4, 16⟩, ⟨22, 31⟩, ⟨16, 12⟩, ?_,
      by decide +kernel, by decide +kernel, by decide +kernel, ?_⟩
    · rw [ceilSqrt_39]; decide
    · rw [ceilSqrt_39]; decide +kernel
    · intro j' h1 h2; omega

/-- For every `MEMORY_LIMIT`: with the order 1 supplied there is one baby step, `G` itself, and one
probe, `(9, 25) - G = (12, 12)`. -/
theorem witness_DlogReportsExhaustion :
    SearchEntered (solving 1 ⟨9, 25⟩) ⟨16, 12⟩ ⟨9, 25⟩ 1 ∧
    (∀ i, 1 ≤ i → i ≤ ceilSqrt 1 → MissAt (solving 1 ⟨9, 25⟩).curve ⟨16, 12⟩ ⟨9, 25⟩ 1 i) := by
  have hc : (solving 1 ⟨9, 25⟩).curve = toyCurve := by decide +kernel
  have hs : ceilSqrt 1 = 1 := by decide
  have hb : babyCount 1 ≤ 1 := hs ▸ babyCount_le 1
  refine ⟨⟨rfl, ?_, ?_, ?_, ?_⟩, ?_⟩
  · rw [hc]; decide +kernel
  · rw [hc]; decide +kernel
  · rw [hc]; decide +kernel
  · intro j h1 hj
    obtain rfl : j = 1 := by omega
    rw [hc]
    exact ⟨⟨16, 12⟩, by decide +kernel⟩
  · intro i h1 hi
    obtain rfl : i = 1 := by omega
    rw [hc]
    refine ⟨⟨16, 12⟩, ⟨16, 12⟩, ⟨12, 12⟩, ?_, by decide +kernel, by decide +kernel, ?_⟩
    · rw [hs]; decide +kernel
    · intro j h1 hj
      obtain rfl : j = 1 := by omega
      decide +kernel

theorem witness_DlogChecksItsInputsFirst :
    (solving 39 ⟨16, 13⟩).cvalid = true ∧
    hasPoint (solving 39 ⟨16, 13⟩).curve (solving 39 ⟨16, 13⟩).pregs[(1 : Fin 16)] = false ∧
    ((solving 0 ⟨9, 25⟩).ovalid = true ∧ (solving 0 ⟨9, 25⟩).cn = 0 ∧
      hasPoint (solving 0 ⟨9, 25⟩).curve (solving 0 ⟨9, 25⟩).pregs[(1 : Fin 16)] = true) := by
  decide +kernel

/-- An order that is counted, as in spec R200 case (c), and one that is supplied. -/
theorem witness_DlogOfIdentityBase :
    (sample.cvalid = true ∧ groupOrder sample.curve sample.suppliedOrder = .ok 39 ∧
      sample.pregs[(3 : Fin 16)] = ⟨0, 0⟩ ∧ sample.pregs[(15 : Fin 16)] = ⟨0, 0⟩) ∧
    ((solving 1 ⟨0, 0⟩).cvalid = true ∧
      groupOrder (solving 1 ⟨0, 0⟩).curve (solving 1 ⟨0, 0⟩).suppliedOrder = .ok 1 ∧
      (solving 1 ⟨0, 0⟩).pregs[(1 : Fin 16)] = ⟨0, 0⟩ ∧
      (solving 1 ⟨0, 0⟩).pregs[(2 : Fin 16)] = ⟨0, 0⟩) := by decide +kernel

/-- For every limit the search of `15 G` ends in 15. -/
theorem dlog_anyLimit (limit : Nat) (h : 1 ≤ limit) :
    discreteLogarithm toyCurve (some 39) limit [] ⟨16, 12⟩ ⟨8, 1⟩ = .ok 15 := by
  have small : ∀ k : Fin 8, 1 ≤ k.val →
      discreteLogarithm toyCurve (some 39) k.val [] ⟨16, 12⟩ ⟨8, 1⟩ = .ok 15 := by decide +kernel
  by_cases hl : limit < 8
  · exact small ⟨limit, hl⟩ h
  · have cut : discreteLogarithm toyCurve (some 39) limit [] ⟨16, 12⟩ ⟨8, 1⟩ =
        discreteLogarithm toyCurve (some 39) 7 [] ⟨16, 12⟩ ⟨8, 1⟩ := by
      simp only [discreteLogarithm, groupOrder, bind, Except.bind, ceilSqrt_39]
      rw [Nat.min_eq_left (by omega : 7 ≤ limit), Nat.min_self]
    rw [cut]
    exact small 7 (by decide)

theorem witness_DlogResultComesFromAHit :
    ∃ t, exec (.dlog 1 0 1) (solving 39 ⟨8, 1⟩) = .next t ∧ t.done = true := by
  have hk : (do
      let c ← (solving 39 ⟨8, 1⟩).needCurve
      let k ← discreteLogarithm c (solving 39 ⟨8, 1⟩).suppliedOrder Config.memoryLimit
        (solving 39 ⟨8, 1⟩).table ((solving 39 ⟨8, 1⟩).readP 0) ((solving 39 ⟨8, 1⟩).readP 1)
      .ok ((solving 39 ⟨8, 1⟩).afterSolver.writeF 1 (toReg k)) : Except FaultCode State) =
      .ok ((solving 39 ⟨8, 1⟩).afterSolver.writeF 1 (toReg 15)) := by
    have hd := dlog_anyLimit Config.memoryLimit one_le_memoryLimit
    have hc : (solving 39 ⟨8, 1⟩).needCurve = .ok toyCurve := by decide +kernel
    have ho : (solving 39 ⟨8, 1⟩).suppliedOrder = some 39 := by decide +kernel
    have h0 : (solving 39 ⟨8, 1⟩).readP 0 = ⟨16, 12⟩ := by decide +kernel
    have h1 : (solving 39 ⟨8, 1⟩).readP 1 = ⟨8, 1⟩ := by decide +kernel
    have ht : (solving 39 ⟨8, 1⟩).table = [] := rfl
    rw [hc, ho, h0, h1, ht]
    simp only [bind, Except.bind, hd]
  exact ⟨((solving 39 ⟨8, 1⟩).afterSolver.writeF 1 (toReg 15)).complete,
    congrArg (State.finish (solving 39 ⟨8, 1⟩).afterSolver (encode (.dlog 1 0 1))) hk, rfl⟩

/-- A result 17, for the clause `k = 0` a result 0, and a result 5 for a base of order 8, whose multiple
by 8 SMUL refuses. -/
theorem witness_DlogIsSound :
    (Supported toyCurve ∧ Valid toyCurve ⟨16, 12⟩ ∧ groupOrder toyCurve (some 39) = .ok 39 ∧
      groupMultiple toyCurve ⟨16, 12⟩ 39 = ⟨0, 0⟩ ∧ Valid toyCurve ⟨9, 25⟩ ∧
      discreteLogarithm toyCurve (some 39) 7 [] ⟨16, 12⟩ ⟨9, 25⟩ = .ok 17 ∧
      scalarMultiply toyCurve ⟨16, 12⟩ 17 = .ok ⟨9, 25⟩) ∧
    (Valid toyCurve ⟨0, 0⟩ ∧
      discreteLogarithm toyCurve (some 39) 4 [] ⟨16, 12⟩ ⟨0, 0⟩ = .ok 0) ∧
    (Supported evenCurve ∧ Valid evenCurve ⟨36, 31⟩ ∧ groupOrder evenCurve (some 8) = .ok 8 ∧
      groupMultiple evenCurve ⟨36, 31⟩ 8 = ⟨0, 0⟩ ∧ Valid evenCurve ⟨24, 23⟩ ∧
      discreteLogarithm evenCurve (some 8) 3 [] ⟨36, 31⟩ ⟨24, 23⟩ = .ok 5 ∧
      scalarMultiply evenCurve ⟨36, 31⟩ 8 = .error .notInvertible) :=
  ⟨⟨toyCurve_supported, valid_toy_G, rfl, by decide +kernel, valid_toy_Pt, by decide +kernel,
    by decide +kernel⟩, ⟨valid_toy_identity, by decide +kernel⟩,
    evenCurve_supported, .inr (by decide +kernel), rfl, by decide +kernel, .inr (by decide +kernel),
    by decide +kernel, by decide +kernel⟩

/-- A base of order 39, and bases of order 4 and 2, whose doubling chains fault. -/
theorem witness_DlogNeverMissesAMultiple :
    (Supported toyCurve ∧ Valid toyCurve ⟨16, 12⟩ ∧ groupOrder toyCurve (some 39) = .ok 39 ∧
      groupMultiple toyCurve ⟨16, 12⟩ 39 = ⟨0, 0⟩ ∧ groupMultiple toyCurve ⟨16, 12⟩ 17 = ⟨9, 25⟩ ∧
      ceilSqrt 39 ≤ 7) ∧
    (Supported evenCurve ∧ Valid evenCurve ⟨35, 18⟩ ∧ groupOrder evenCurve (some 4) = .ok 4 ∧
      groupMultiple evenCurve ⟨35, 18⟩ 4 = ⟨0, 0⟩ ∧ groupMultiple evenCurve ⟨35, 18⟩ 2 = ⟨25, 0⟩ ∧
      ceilSqrt 4 ≤ 2) ∧
    Valid evenCurve ⟨25, 0⟩ ∧ groupMultiple evenCurve ⟨25, 0⟩ 2 = ⟨0, 0⟩ :=
  ⟨⟨toyCurve_supported, valid_toy_G, rfl, by decide +kernel, by decide +kernel, ceilSqrt_39.le⟩,
    ⟨evenCurve_supported, .inr (by decide +kernel), rfl, by decide +kernel, by decide +kernel,
      by decide +kernel⟩, valid_even_order2, by decide +kernel⟩

end Sys2Proof.Tests
end

section
/-! PROOFS. What one step of the machine can do and what a completed command can have written, each
said once; the proofs after it argue by these cases. -/

namespace Sys2Proof.Machine

open Sys2Proof.Claims

/-- The state in which the next event is handled: `s` without that event. -/
def State.popInput (s : State) : State := { s with inputs := s.inputs.tail }

theorem State.popInput_of_no_input {s : State} (h : s.inputs = []) : s.popInput = s :=
  have htail : s.inputs.tail = s.inputs := by rw [h, List.tail_nil]
  congrArg (fun l => { s with inputs := l }) htail

theorem State.popInput_of_input {s : State} {e : Input} {rest : List Input}
    (h : s.inputs = e :: rest) : s.popInput = { s with inputs := rest } := by
  rw [State.popInput, h, List.tail_cons]

/-- What a step from `s` to `t` can have been (spec R37, R66, R67, R68, R271). -/
inductive StepCase (s t : State) : Prop
  /-- Reset was asserted. -/
  | reset (hin : s.inputs.head? = some .reset) (ht : t = resetMachine s.popInput)
  /-- The engine ended the command in flight. -/
  | command (w : Word32) (i : Instr) (hm : s.mode = .busy w) (hd : decode w = .ok i)
      (ht : exec i s.popInput = .next t)
  /-- The engine ended a word that is no command. -/
  | illegal (w : Word32) (e : DecodeError) (hm : s.mode = .busy w) (hd : decode w = .error e)
      (ht : t = s.popInput.raise .illegalCmd w)
  /-- A command was issued. -/
  | issue (w : Word32) (hm : s.mode = .idle) (ht : t = s.popInput.acceptCommand w)
  /-- A word of a read/write register was replaced. -/
  | store (l : Loc) (v : Word32) (hm : s.mode = .idle) (hl : l.writable = true)
      (ht : t = (s.popInput.writeLoc l v).answer (.write .ok))
  /-- FACK was accepted in FAULTED. -/
  | acknowledge (hm : s.mode = .faulted)
      (ht : t = (s.popInput.answer (.write .ok)).acknowledge.complete)
  /-- A read was answered, a transaction was refused, or nothing happened. -/
  | answered (r : Reply) (k : Nat) (ht : t = { s.popInput with reply := r, freeCount := k })

theorem exec_fack (s : State) : exec .fack s = .next s.acknowledge.complete := rfl

theorem stepCase_of_engineStep {s t : State} (h : engineStep s.popInput = .next t) :
    StepCase s t := by
  cases hm : s.mode with
  | busy w =>
    cases hd : decode w with
    | ok i =>
      have hi := engineStep_of_decoded (s := s.popInput) hm hd
      exact .command w i hm hd (hi.symm.trans h)
    | error e =>
      have hi := engineStep_of_illegal (s := s.popInput) hm hd
      exact .illegal w e hm hd (Host.Outcome.next.inj (h.symm.trans hi))
  | idle =>
    have hi := engineStep_of_idle (s := s.popInput) hm
    exact .answered _ _ (Host.Outcome.next.inj (h.symm.trans hi))
  | faulted =>
    have hi := engineStep_of_faulted (s := s.popInput) hm
    exact .answered _ _ (Host.Outcome.next.inj (h.symm.trans hi))

theorem stepCase_of_busWrite {s t : State} {addr width : Nat} {v : Word32}
    (h : busWrite addr width v s.popInput = .next t) : StepCase s t := by
  rcases busWrite_cases addr width v s.popInput with
    ⟨hm, -, hw⟩ | ⟨hm, l, -, hl, hw⟩ | ⟨hm, -, -, hw⟩ | hw
  · exact .issue v hm (Host.Outcome.next.inj (h.symm.trans hw))
  · exact .store l v hm hl (Host.Outcome.next.inj (h.symm.trans hw))
  · exact .acknowledge hm (Host.Outcome.next.inj (h.symm.trans (hw.trans (exec_fack _))))
  · exact .answered _ _ (Host.Outcome.next.inj (h.symm.trans hw))

theorem step_cases {s t : State} (h : step s = .next t) : StepCase s t := by
  cases hin : s.inputs with
  | nil =>
    exact stepCase_of_engineStep (by rw [State.popInput_of_no_input hin, ← step_of_no_input hin, h])
  | cons e rest =>
    have hdeliver : deliver e s.popInput = .next t := by
      rw [← h, step_of_input hin, State.popInput_of_input hin]
    cases e with
    | read addr width =>
      obtain ⟨r, k, hr⟩ := busRead_changes_only_reply addr width s.popInput
      exact .answered r k ((Host.Outcome.next.inj hdeliver).symm.trans hr)
    | write addr width v => exact stepCase_of_busWrite hdeliver
    | reset => exact .reset (by simp [hin]) (Host.Outcome.next.inj hdeliver).symm
    | engine => exact stepCase_of_engineStep hdeliver

/-- What a command `i` that completes can have written on `s`, before `DONE <- 1`: the coarse form of
`ResultShape`, one constructor for each kind of destination (spec R28, R30, R31, R92). -/
inductive CommandEffect (i : Instr) (s : State) : State → Prop
  | acknowledge (hi : i = .fack) : CommandEffect i s s.acknowledge
  | field (rd : FReg) (v : Word256) (hrd : destF i = some rd) (hi : isDlog i = false) :
      CommandEffect i s (s.writeF rd v)
  | point (rd : PReg) (Q : Point) (hrd : destP i = some rd) : CommandEffect i s (s.writeP rd Q)
  | flag (b : Bool) (hi : isPredicate i = true) : CommandEffect i s (s.setT b)
  | curve (a b : Word32) (p n : Word256) (v : Bool) (hi : isConstruction i = true) (hp : p ≠ 0)
      (hd : discriminant (sext32 a) (sext32 b) ≠ 0) (hn : v = false → n = 0) :
      CommandEffect i s ((s.setCurve a b p).setOrder n v)
  | order (n : Word256) (hi : writesOrder i = true) (hc : s.cvalid = true) :
      CommandEffect i s (s.setOrder n true)
  | solution (rd : FReg) (v : Word256) (hrd : destF i = some rd) (hi : isDlog i = true) :
      CommandEffect i s (s.forgetTable.writeF rd v)

theorem State.afterSolver_of_cvalid {s : State} (h : s.cvalid = true) :
    s.afterSolver = s.forgetTable := by
  simp [State.afterSolver, h]

theorem secp_nonsingular : discriminant (sext32 0) (sext32 7) ≠ 0 := by decide

theorem secpP_ne_zero : secpP ≠ 0 := by decide

theorem ResultShape.effect {i : Instr} {s s' : State} (h : ResultShape i s s') :
    CommandEffect i s s' := by
  cases i with
  | fack => exact h ▸ .acknowledge rfl
  | ptZero rd | ptSet rd => exact h ▸ .point rd _ rfl
  | ptGetx rd | ptGety rd => exact h ▸ .field rd _ rfl rfl
  | ptIsz | ptEq =>
    obtain ⟨b, rfl⟩ := h
    exact .flag b rfl
  | crvInit rs1 =>
    obtain ⟨hp, hd, rfl⟩ := h
    exact .curve _ _ _ _ _ rfl hp hd fun _ => rfl
  | crvSecp => exact h ▸ .curve _ _ _ _ _ rfl secpP_ne_zero secp_nonsingular nofun
  | crvGetp rd =>
    obtain ⟨-, rfl⟩ := h
    exact .field rd _ rfl rfl
  | ordSet rs1 =>
    obtain ⟨hc, rfl⟩ := h
    exact .order _ rfl hc
  | haspt =>
    obtain ⟨-, b, rfl⟩ := h
    exact .flag b rfl
  | pneg rd | padd rd | pdbl rd | smul rd =>
    obtain ⟨-, Q, rfl⟩ := h
    exact .point rd Q rfl
  | ordGet rd | fmul rd | finv rd | fsqrt rd =>
    obtain ⟨-, v, rfl⟩ := h
    exact .field rd v rfl rfl
  | dlog rd =>
    obtain ⟨hc, v, rfl⟩ := h
    exact State.afterSolver_of_cvalid hc ▸ .solution rd v rfl rfl

/-- A command's faults are raised on the state before it, the hidden table of a DLOG apart. -/
theorem faultBase_cases (i : Instr) (s : State) :
    faultBase i s = s ∨ (isDlog i = true ∧ faultBase i s = s.forgetTable) := by
  cases i with
  | dlog =>
    cases hc : s.cvalid with
    | true => exact .inr ⟨rfl, State.afterSolver_of_cvalid hc⟩
    | false => exact .inl (by simp [faultBase, State.afterSolver, hc])
  | _ => exact .inl rfl

end Sys2Proof.Machine
end

section
/-! PROOFS. The invariant of Safety.lean: its parts, and that every step keeps them (O17, O18). -/

namespace Sys2Proof.Machine

/-- The part of the invariant about the mode, `DONE`, `ERR` and `FAULTCMD` (spec R33, R34, R39,
R230). -/
structure FaultRegsOk (mode : Mode) (done : Bool) (err : BitVec 8) (faultcmd : Word32) : Prop where
  errIffFaulted : err ≠ 0 ↔ mode = .faulted
  errInRange : err.toNat ≤ 8
  faultcmdClear : mode ≠ .faulted → faultcmd = 0
  doneOnlyIdle : done = true → mode = .idle

/-- The part of the invariant about the curve and order registers (spec R30, R31). -/
structure CurveRegsOk (ca cb : Word32) (cp : Word256) (cvalid : Bool) (cn : Word256)
    (ovalid : Bool) : Prop where
  noCurveClear : cvalid = false → ca = 0 ∧ cb = 0 ∧ cp = 0
  primePositive : cvalid = true → cp ≠ 0
  curveNonsingular : cvalid = true → discriminant (sext32 ca) (sext32 cb) ≠ 0
  noOrderClear : ovalid = false → cn = 0
  orderHasCurve : ovalid = true → cvalid = true

/-- `FaultRegsOk` of a state's registers. -/
def State.FaultsOk (s : State) : Prop := FaultRegsOk s.mode s.done s.err s.faultcmd

/-- `CurveRegsOk` and the table's form, of a state's registers. -/
def State.DataOk (s : State) : Prop :=
  CurveRegsOk s.ca s.cb s.cp s.cvalid s.cn s.ovalid ∧ TableOk Config.memoryLimit s.table

theorem State.faultBit_eq_true_iff (s : State) : s.faultBit = true ↔ s.mode = .faulted := by
  cases h : s.mode <;> simp [State.faultBit, h]

theorem State.faultBit_eq_false_iff (s : State) : s.faultBit = false ↔ s.mode ≠ .faulted := by
  rw [← Bool.not_eq_true, Ne, s.faultBit_eq_true_iff]

theorem State.busyBit_eq_true_iff (s : State) : s.busyBit = true ↔ ∃ w, s.mode = .busy w := by
  cases h : s.mode <;> simp [State.busyBit, h]

theorem State.inv_iff (s : State) : s.Inv ↔ s.FaultsOk ∧ s.DataOk := by
  constructor
  · intro h
    exact ⟨⟨h.errIffFault.trans s.faultBit_eq_true_iff, h.errInRange,
        fun hm => h.faultcmdClear (s.faultBit_eq_false_iff.mpr hm), h.doneOnlyIdle⟩,
      ⟨h.noCurveClear, h.primePositive, h.curveNonsingular, h.noOrderClear, h.orderHasCurve⟩,
      h.tableForm⟩
  · rintro ⟨hf, hc, ht⟩
    exact ⟨hf.errIffFaulted.trans s.faultBit_eq_true_iff.symm, hf.errInRange,
      fun hm => hf.faultcmdClear (s.faultBit_eq_false_iff.mp hm), hf.doneOnlyIdle,
      hc.noCurveClear, hc.primePositive, hc.curveNonsingular, hc.noOrderClear, hc.orderHasCurve, ht⟩

/-! ### The fault and completion registers -/

/-- Outside FAULTED the invariant says that `ERR` and `FAULTCMD` are clear (spec R33, R34). -/
theorem FaultRegsOk.clear {mode : Mode} {done : Bool} {err : BitVec 8} {faultcmd : Word32}
    (h : FaultRegsOk mode done err faultcmd) (hm : mode ≠ .faulted) : err = 0 ∧ faultcmd = 0 :=
  ⟨not_not.mp fun he => hm (h.errIffFaulted.mp he), h.faultcmdClear hm⟩

theorem FaultRegsOk.of_clear {mode : Mode} {done : Bool} {err : BitVec 8} {faultcmd : Word32}
    (hm : mode ≠ .faulted) (hdone : done = true → mode = .idle) (h : err = 0 ∧ faultcmd = 0) :
    FaultRegsOk mode done err faultcmd := by
  obtain ⟨rfl, rfl⟩ := h
  exact ⟨⟨fun he => absurd rfl he, fun hf => absurd hf hm⟩, Nat.zero_le 8, fun _ => rfl, hdone⟩

theorem State.complete_faultsOk {s : State} (h : s.err = 0 ∧ s.faultcmd = 0) :
    s.complete.FaultsOk :=
  FaultRegsOk.of_clear (mode := .idle) nofun (fun _ => rfl) h

theorem State.acceptCommand_faultsOk {s : State} (h : s.err = 0 ∧ s.faultcmd = 0) (w : Word32) :
    (s.acceptCommand w).FaultsOk :=
  FaultRegsOk.of_clear (mode := .busy w) nofun nofun h

/-- Fault entry establishes this part of the invariant from any state (spec R233). -/
theorem State.raise_faultsOk (s : State) (e : FaultCode) (w : Word32) : (s.raise e w).FaultsOk where
  errIffFaulted := ⟨fun _ => rfl, fun _ => e.number_ne_zero⟩
  errInRange := e.number_le_eight
  faultcmdClear hm := absurd rfl hm
  doneOnlyIdle := nofun

/-- No result of a command sets `ERR` or `FAULTCMD`: only fault entry does. -/
theorem CommandEffect.keeps_clear {i : Instr} {s s' : State} (h : CommandEffect i s s')
    (hs : s.err = 0 ∧ s.faultcmd = 0) : s'.err = 0 ∧ s'.faultcmd = 0 := by
  cases h with
  | acknowledge => exact ⟨rfl, rfl⟩
  | field | point | flag | curve | order | solution => exact hs

/-! ### The curve and order registers and the table -/

theorem State.forgetTable_dataOk {s : State} (h : s.DataOk) : s.forgetTable.DataOk :=
  ⟨h.1, boundedTable_ok _ _⟩

/-- A construction ends with all registers of the curve written together (spec R142, R143). -/
theorem CurveRegsOk.constructed {a b : Word32} {p n : Word256} {v : Bool} (hp : p ≠ 0)
    (hd : discriminant (sext32 a) (sext32 b) ≠ 0) (hn : v = false → n = 0) :
    CurveRegsOk a b p true n v :=
  ⟨nofun, fun _ => hp, fun _ => hd, hn, fun _ => rfl⟩

/-- An order is supplied while there is a curve (spec R147). -/
theorem CurveRegsOk.supplied {a b : Word32} {p n : Word256} {c v : Bool}
    (h : CurveRegsOk a b p c n v) (hc : c = true) (n' : Word256) : CurveRegsOk a b p c n' true :=
  ⟨h.noCurveClear, h.primePositive, h.curveNonsingular, nofun, fun _ => hc⟩

theorem CommandEffect.keeps_dataOk {i : Instr} {s s' : State} (h : CommandEffect i s s')
    (hs : s.DataOk) : s'.DataOk := by
  cases h with
  | acknowledge | field | point | flag => exact hs
  | curve a b p n v _ hp hd hn => exact ⟨.constructed hp hd hn, hs.2⟩
  | order n _ hc => exact ⟨hs.1.supplied hc n, hs.2⟩
  | solution => exact State.forgetTable_dataOk hs

theorem faultBase_dataOk (i : Instr) {s : State} (hs : s.DataOk) : (faultBase i s).DataOk := by
  rcases faultBase_cases i s with h | ⟨-, h⟩ <;> rw [h]
  · exact hs
  · exact State.forgetTable_dataOk hs

theorem State.writeLoc_dataOk {s : State} (hs : s.DataOk) (l : Loc) (v : Word32) :
    (s.writeLoc l v).DataOk := by
  simpa [State.DataOk] using hs

theorem State.writeLoc_faultsOk {s : State} (hs : s.FaultsOk) (l : Loc) (v : Word32) :
    (s.writeLoc l v).FaultsOk := by
  simpa [State.FaultsOk] using hs

/-! ### Commands, reset and the step -/

theorem State.reset_inv : State.reset.Inv :=
  State.reset.inv_iff.mpr
    ⟨.of_clear (by decide) (by decide) ⟨rfl, rfl⟩,
      ⟨fun _ => ⟨rfl, rfl, rfl⟩, nofun, nofun, fun _ => rfl, nofun⟩, tableClear_ok _ []⟩

theorem resetMachine_inv (s : State) : (resetMachine s).Inv := by
  obtain ⟨hf, hc, -⟩ := State.reset.inv_iff.mp State.reset_inv
  exact (State.inv_iff _).mpr ⟨hf, hc, boundedTable_ok _ _⟩

/-- A command executed outside FAULTED keeps the invariant, completed or not. -/
theorem exec_keeps_inv {i : Instr} {s t : State} (hs : s.Inv) (hm : s.mode ≠ .faulted)
    (h : exec i s = .next t) : t.Inv := by
  obtain ⟨hf, hd⟩ := s.inv_iff.mp hs
  rcases exec_cases h with ⟨s', hr, rfl⟩ | ⟨e, rfl⟩
  · have hclear := hr.effect.keeps_clear (FaultRegsOk.clear hf hm)
    exact (State.inv_iff _).mpr ⟨State.complete_faultsOk hclear, hr.effect.keeps_dataOk hd⟩
  · exact (State.inv_iff _).mpr ⟨State.raise_faultsOk _ e _, faultBase_dataOk i hd⟩

/-- Settles O17: the registers are all clear and the table is empty. -/
theorem resetMeetsInvariant : Obligations.ResetMeetsInvariant := State.reset_inv

/-- Settles O18, by the cases of a step. -/
theorem stepKeepsInvariant : Obligations.StepKeepsInvariant := by
  intro s t hs hstep
  obtain ⟨hf, hd⟩ := s.inv_iff.mp hs
  cases step_cases hstep with
  | reset _ ht => exact ht ▸ resetMachine_inv _
  | command w i hm _ ht =>
    have hpop : s.popInput.Inv := s.popInput.inv_iff.mpr ⟨hf, hd⟩
    exact exec_keeps_inv hpop (fun hfaulted => nomatch hm.symm.trans hfaulted) ht
  | illegal w _ _ _ ht =>
    exact ht ▸ (State.inv_iff _).mpr ⟨State.raise_faultsOk _ _ w, hd⟩
  | issue w hm ht =>
    have hclear := FaultRegsOk.clear hf (fun hfaulted => nomatch hm.symm.trans hfaulted)
    exact ht ▸ (State.inv_iff _).mpr ⟨State.acceptCommand_faultsOk hclear w, hd⟩
  | store l v _ _ ht =>
    have hf' := State.writeLoc_faultsOk (s := s.popInput) hf l v
    have hd' := State.writeLoc_dataOk (s := s.popInput) hd l v
    exact ht ▸ (State.inv_iff _).mpr ⟨hf', hd'⟩
  | acknowledge _ ht =>
    exact ht ▸ (State.inv_iff _).mpr ⟨State.complete_faultsOk ⟨rfl, rfl⟩, hd⟩
  | answered r k ht => exact ht ▸ (State.inv_iff _).mpr ⟨hf, hd⟩

end Sys2Proof.Machine
end

section
/-! PROOFS. What changes the test flag and the curve registers (O26, O27). -/

namespace Sys2Proof.Machine

open Sys2Proof.Claims

/-- The curve registers of `t` are those of `s` (spec R30). -/
def SameCurve (s t : State) : Prop :=
  t.ca = s.ca ∧ t.cb = s.cb ∧ t.cp = s.cp ∧ t.cvalid = s.cvalid

theorem SameCurve.refl (s : State) : SameCurve s s := ⟨rfl, rfl, rfl, rfl⟩

theorem CommandEffect.t_eq_or_isPredicate {i : Instr} {s s' : State} (h : CommandEffect i s s') :
    s'.t = s.t ∨ isPredicate i = true := by
  cases h with
  | flag _ hi => exact .inr hi
  | acknowledge | field | point | curve | order | solution => exact .inl rfl

theorem CommandEffect.sameCurve_or_isConstruction {i : Instr} {s s' : State}
    (h : CommandEffect i s s') : SameCurve s s' ∨ isConstruction i = true := by
  cases h with
  | curve _ _ _ _ _ hi => exact .inr hi
  | acknowledge | field | point | flag | order | solution => exact .inl (SameCurve.refl s)

theorem faultBase_t (i : Instr) (s : State) : (faultBase i s).t = s.t := by
  rcases faultBase_cases i s with h | ⟨-, h⟩ <;> rw [h]
  rfl

theorem faultBase_sameCurve (i : Instr) (s : State) : SameCurve s (faultBase i s) := by
  rcases faultBase_cases i s with h | ⟨-, h⟩ <;> rw [h] <;> exact SameCurve.refl s

/-- `T` changes only where a predicate completes (spec R28). -/
theorem exec_t_eq_or_predicate {i : Instr} {s t : State} (h : exec i s = .next t) :
    t.t = s.t ∨ (isPredicate i = true ∧ t.done = true) := by
  rcases exec_cases h with ⟨s', hr, rfl⟩ | ⟨e, rfl⟩
  · exact hr.effect.t_eq_or_isPredicate.imp_right fun hi => ⟨hi, rfl⟩
  · exact .inl (faultBase_t i s)

/-- The curve changes only where a construction completes (spec R149). -/
theorem exec_sameCurve_or_construction {i : Instr} {s t : State} (h : exec i s = .next t) :
    SameCurve s t ∨ (isConstruction i = true ∧ t.done = true) := by
  rcases exec_cases h with ⟨s', hr, rfl⟩ | ⟨e, rfl⟩
  · exact hr.effect.sameCurve_or_isConstruction.imp_right fun hi => ⟨hi, rfl⟩
  · exact .inl (faultBase_sameCurve i s)

/-- Over any step that neither resets nor ends a decoded command, `T` and the curve stay (spec R28,
R30). -/
theorem step_keeps_flag_and_curve {s t : State} (h : step s = .next t) :
    s.inputs.head? = some .reset ∨
    (∃ w i, s.mode = .busy w ∧ decode w = .ok i ∧ exec i s.popInput = .next t) ∨
    (t.t = s.t ∧ SameCurve s t) := by
  cases step_cases h with
  | reset hin _ => exact .inl hin
  | command w i hm hd ht => exact .inr (.inl ⟨w, i, hm, hd, ht⟩)
  | store l v _ _ ht => exact .inr (.inr (by subst ht; simp [SameCurve, State.popInput]))
  | illegal _ _ _ _ ht | issue _ _ ht | acknowledge _ ht | answered _ _ ht =>
    exact .inr (.inr (ht ▸ ⟨rfl, SameCurve.refl s⟩))

/-- Settles O26: only a command writes `T`, and of the commands only a predicate that completes. -/
theorem testFlagChangesOnlyByPredicates : Obligations.TestFlagChangesOnlyByPredicates := by
  intro s t hstep hne
  rcases step_keeps_flag_and_curve hstep with hin | ⟨w, i, hm, hd, ht⟩ | ⟨hsame, -⟩
  · exact .inl hin
  · have hi := (exec_t_eq_or_predicate ht).resolve_left hne
    exact .inr ⟨w, i, hm, hd, hi⟩
  · exact absurd hsame hne

/-- Settles O27: only a command writes the curve, and of the commands only a construction that
completes. -/
theorem curveChangesOnlyByConstruction : Obligations.CurveChangesOnlyByConstruction := by
  intro s t hstep hne
  rcases step_keeps_flag_and_curve hstep with hin | ⟨w, i, hm, hd, ht⟩ | ⟨-, hsame⟩
  · exact .inl hin
  · have hi := (exec_sameCurve_or_construction ht).resolve_left hne
    exact .inr ⟨w, i, hm, hd, hi⟩
  · exact absurd hsame hne

end Sys2Proof.Machine
end

section
/-! PROOFS. `STATUS`, `MEMLIM` and the values after reset (O12, O14, O15). -/

namespace Sys2Proof.Machine

/-- The six bits of `STATUS` in their places (spec R29). -/
theorem assembleStatus_low_bits : ∀ busy done fault t cvalid ovalid : Bool,
    (assembleStatus busy done fault t cvalid ovalid).getLsbD 0 = busy ∧
    (assembleStatus busy done fault t cvalid ovalid).getLsbD 1 = done ∧
    (assembleStatus busy done fault t cvalid ovalid).getLsbD 2 = fault ∧
    (assembleStatus busy done fault t cvalid ovalid).getLsbD 3 = t ∧
    (assembleStatus busy done fault t cvalid ovalid).getLsbD 4 = cvalid ∧
    (assembleStatus busy done fault t cvalid ovalid).getLsbD 5 = ovalid := by
  decide

theorem assembleStatus_toNat_lt : ∀ busy done fault t cvalid ovalid : Bool,
    (assembleStatus busy done fault t cvalid ovalid).toNat < 2 ^ 6 := by
  decide

/-- Bits 31:6 of `STATUS` read as zero (spec R29). -/
theorem assembleStatus_high_bits (busy done fault t cvalid ovalid : Bool) {n : Nat} (hn : 6 ≤ n) :
    (assembleStatus busy done fault t cvalid ovalid).getLsbD n = false :=
  Nat.testBit_lt_two_pow
    ((assembleStatus_toNat_lt busy done fault t cvalid ovalid).trans_le
      (Nat.pow_le_pow_right Nat.two_pos hn))

/-- A read of a mapped word outside BUSY is answered with its content (spec R62). -/
theorem busRead_of_located {s : State} (hm : s.mode = .idle ∨ s.mode = .faulted)
    {addr : Nat} {l : Loc} (hl : locate addr = some l) :
    busRead addr 4 s = s.answerRead (s.readLoc l) := by
  rcases hm with hm | hm <;> simp [busRead, hm, hl]

theorem readLoc_memlim_toNat (s : State) : (s.readLoc .memlim).toNat = Config.memoryLimit :=
  Nat.mod_eq_of_lt memoryLimit_lt

/-- Settles O12, bit by bit of `assembleStatus`. -/
theorem statusBits : Obligations.StatusBits := by
  intro s
  obtain ⟨hbusy, hdone, hfault, ht, hcvalid, hovalid⟩ :=
    assembleStatus_low_bits s.busyBit s.done s.faultBit s.t s.cvalid s.ovalid
  refine ⟨?_, hdone, ?_, ht, hcvalid, hovalid, fun n hn => assembleStatus_high_bits _ _ _ _ _ _ hn⟩
  · exact (Bool.eq_iff_iff.mp hbusy).trans s.busyBit_eq_true_iff
  · exact (Bool.eq_iff_iff.mp hfault).trans s.faultBit_eq_true_iff

/-- Settles O14: the parameter's range makes the 32-bit word exact. -/
theorem memlimReadsTheLimit : Obligations.MemlimReadsTheLimit := by
  intro s rest hm hin
  have hread : busRead 0x020 4 { s with inputs := rest } =
      ({ s with inputs := rest } : State).answerRead (s.readLoc .memlim) :=
    busRead_of_located (s := { s with inputs := rest }) hm (l := .memlim) rfl
  refine ⟨s.readLoc .memlim, ?_, readLoc_memlim_toNat s, memoryLimit_pos⟩
  rw [step_of_input hin, deliver_read, hread]
  rfl

/-- Settles O15, on the literal reset state. -/
theorem resetValues : Obligations.ResetValues := by
  unfold Obligations.ResetValues
  decide

end Sys2Proof.Machine
end

section
/-! PROOFS. Only DLOG uses the baby-step table (O28). -/

namespace Sys2Proof.Machine

open Sys2Proof.Claims

/-- `s` with another content of the hidden table (spec R38). -/
def State.withTable (tab : Table) (s : State) : State := { s with table := tab }

/-- Completion and fault entry carry the table along. -/
theorem State.finish_withTable {s t : State} {w : Word32} {r : Except FaultCode State} (tab : Table)
    (h : s.finish w r = .next t) :
    (s.withTable tab).finish w (State.withTable tab <$> r) = .next (t.withTable tab) := by
  rcases (State.finish_eq_next_iff _ _ _ _).mp h with ⟨s', rfl, rfl⟩ | ⟨e, rfl, rfl⟩ <;> rfl

theorem State.constructCurve_withTable (tab : Table) (s : State) (pp : Word256) :
    (s.withTable tab).constructCurve pp = State.withTable tab <$> s.constructCurve pp := by
  simp only [State.constructCurve, apply_ite (State.withTable tab <$> ·)]
  rfl

/-- A command other than DLOG computes the same result whatever the table holds. -/
theorem exec_withTable_shape {i : Instr} (hi : isDlog i = false) (tab : Table) (s : State) :
    ∃ r, exec i s = s.finish (encode i) r ∧
      exec i (s.withTable tab) =
        (s.withTable tab).finish (encode i) (State.withTable tab <$> r) := by
  cases i with
  | fack | ptZero | ptSet | ptGetx | ptGety | ptIsz | ptEq | crvSecp =>
    exact ⟨.ok _, rfl, rfl⟩
  | crvInit rs1 =>
    exact ⟨_, rfl, congrArg (State.finish _ _) (State.constructCurve_withTable tab s (s.readF rs1))⟩
  | crvGetp | ordGet | ordSet | haspt | pneg | padd | pdbl | smul | fmul | finv | fsqrt =>
    refine ⟨_, rfl, ?_⟩
    simp only [map_bind]
    rfl
  | dlog => exact nomatch hi

theorem exec_withTable {i : Instr} (hi : isDlog i = false) {s t : State} (h : exec i s = .next t)
    (tab : Table) : exec i (s.withTable tab) = .next (t.withTable tab) := by
  obtain ⟨r, hr, htab⟩ := exec_withTable_shape hi tab s
  rw [htab]
  exact State.finish_withTable tab (hr.symm.trans h)

/-- With a curve DLOG clears the table first and leaves it free after: its whole outcome is the same
whatever the table held (spec R200). -/
theorem execDlog_withTable (rd : FReg) (rs1 rs2 : PReg) {s : State} (hc : s.cvalid = true)
    (tab : Table) : execDlog rd rs1 rs2 (s.withTable tab) = execDlog rd rs1 rs2 s := by
  have hafter : (s.withTable tab).afterSolver = s.afterSolver := by
    rw [State.afterSolver_of_cvalid hc, State.afterSolver_of_cvalid (s := s.withTable tab) hc]
    rfl
  rw [execDlog, hafter]
  rfl

/-- Settles O28: `exec_withTable` for the other commands, `execDlog_withTable` for DLOG. -/
theorem tableIsPrivateToDlog : Obligations.TableIsPrivateToDlog := by
  intro i s t tab h
  refine ⟨fun hi => exec_withTable hi h tab, fun hi hc => ?_⟩
  cases i with
  | dlog rd rs1 rs2 => exact (execDlog_withTable rd rs1 rs2 hc tab).trans h
  | _ => exact nomatch hi

end Sys2Proof.Machine
end

section
/-! PROOFS. The register map of spec R61: `locate` and the address table are inverse to each other
(O10). -/

namespace Sys2Proof.Machine

open Sys2Proof.Claims

/-- Every mapped word is aligned and lies in the window of 2048 bytes (spec R60, R61). -/
theorem address_aligned_in_window (l : Loc) : address l % 4 = 0 ∧ address l < 0x800 := by
  cases l <;> constructor <;> simp only [address] <;> omega

/-- The word index of a mapped address, its register's words starting at a multiple of 32. -/
theorem wordIndex_add {base : Nat} (hbase : base % 32 = 0) (k : Fin 8) :
    wordIndex (base + 4 * k.val) = k :=
  Fin.ext (by simp only [wordIndex]; omega)

theorem fieldIndex_add (i : FReg) (k : Fin 8) :
    fieldIndex (0x200 + 32 * i.val + 4 * k.val) = i :=
  Fin.ext (by simp only [fieldIndex]; omega)

/-- Both halves of a point's slot give the point's index. -/
theorem pointIndex_add {base : Nat} (hbase : base = 0x400 ∨ base = 0x420) (i : PReg) (k : Fin 8) :
    pointIndex (base + 64 * i.val + 4 * k.val) = i :=
  Fin.ext (by simp only [pointIndex]; omega)

theorem locate_address (l : Loc) : locate (address l) = some l := by
  cases l with
  | cmd | status | err | faultcmd | arga | argb | ca | cb | memlim => rfl
  | cp k | cn k =>
    simp (disch := omega) only [locate, address, if_pos, if_neg, wordIndex_add]
  | f i k =>
    simp (disch := omega) only [locate, address, if_pos, if_neg, wordIndex_add, fieldIndex_add]
  | px i k | py i k =>
    simp (disch := omega) only [locate, address, if_pos, if_neg, wordIndex_add, pointIndex_add]

/-- The nine single words, the wide regions and the holes between them are all of the address space
(spec R61). -/
theorem locate_eq_none_or_mapped (addr : Nat) : locate addr = none ∨ ∃ l, addr = address l := by
  by_cases ha : addr % 4 ≠ 0
  · exact .inl (by simp only [locate, if_pos ha])
  have hregion : (0x020 < addr ∧ addr < 0x040) ∨ (0x080 ≤ addr ∧ addr < 0x200) ∨ 0x800 ≤ addr ∨
      addr = 0x000 ∨ addr = 0x004 ∨ addr = 0x008 ∨ addr = 0x00C ∨ addr = 0x010 ∨
      addr = 0x014 ∨ addr = 0x018 ∨ addr = 0x01C ∨ addr = 0x020 ∨
      (0x040 ≤ addr ∧ addr < 0x060) ∨ (0x060 ≤ addr ∧ addr < 0x080) ∨
      (0x200 ≤ addr ∧ addr < 0x400) ∨
      (0x400 ≤ addr ∧ addr < 0x800 ∧ addr % 64 < 32) ∨
      (0x400 ≤ addr ∧ addr < 0x800 ∧ 32 ≤ addr % 64) := by omega
  rcases hregion with h | h | h | hmapped
  iterate 3 exact .inl (by simp (disch := omega) only [locate, if_pos, if_neg])
  · right
    rcases hmapped with h | h | h | h | h | h | h | h | h | h | h | h | h | h
    · exact ⟨.cmd, h⟩
    · exact ⟨.status, h⟩
    · exact ⟨.err, h⟩
    · exact ⟨.faultcmd, h⟩
    · exact ⟨.arga, h⟩
    · exact ⟨.argb, h⟩
    · exact ⟨.ca, h⟩
    · exact ⟨.cb, h⟩
    · exact ⟨.memlim, h⟩
    · exact ⟨.cp (wordIndex addr), by simp only [address, wordIndex]; omega⟩
    · exact ⟨.cn (wordIndex addr), by simp only [address, wordIndex]; omega⟩
    · exact ⟨.f (fieldIndex addr) (wordIndex addr), by
        simp only [address, wordIndex, fieldIndex]; omega⟩
    · exact ⟨.px (pointIndex addr) (wordIndex addr), by
        simp only [address, wordIndex, pointIndex]; omega⟩
    · exact ⟨.py (pointIndex addr) (wordIndex addr), by
        simp only [address, wordIndex, pointIndex]; omega⟩

theorem address_eq_of_locate {addr : Nat} {l : Loc} (h : locate addr = some l) :
    addr = address l := by
  rcases locate_eq_none_or_mapped addr with hnone | ⟨l', rfl⟩
  · exact nomatch hnone.symm.trans h
  · rw [Option.some.inj ((locate_address l').symm.trans h)]

theorem locate_eq_some_iff {addr : Nat} {l : Loc} : locate addr = some l ↔ addr = address l :=
  ⟨address_eq_of_locate, fun h => h ▸ locate_address l⟩

theorem locate_eq_none_iff {addr : Nat} : locate addr = none ↔ ∀ l, addr ≠ address l := by
  simp only [Option.eq_none_iff_forall_ne_some, ne_eq, locate_eq_some_iff]

/-- Settles O10: `locate` inverts the address table. -/
theorem registerMapHasNoAliases : Obligations.RegisterMapHasNoAliases :=
  ⟨locate_address, fun _ _ => address_eq_of_locate, address_aligned_in_window⟩

end Sys2Proof.Machine
end

section
/-! PROOFS. The words of a wide register and the content of the map (O11). -/

namespace Sys2Proof.Machine

open Sys2Proof.Claims

theorem wordAt_eq_ofNat (v : Word256) (k : Fin 8) :
    wordAt v k = BitVec.ofNat 32 (v.toNat / 2 ^ (32 * k.val)) := by
  rw [← Nat.shiftRight_eq_div_pow]
  rfl

theorem wordAt_toNat (v : Word256) (k : Fin 8) :
    (wordAt v k).toNat = v.toNat / 2 ^ (32 * k.val) % 2 ^ 32 := by
  rw [wordAt_eq_ofNat, BitVec.toNat_ofNat]

/-- A wide register is the sum of its words, word 0 least significant (spec R69). -/
theorem toNat_eq_sum_wordAt (v : Word256) :
    v.toNat = ∑ k : Fin 8, (wordAt v k).toNat * 2 ^ (32 * k.val) := by
  have hv : v.toNat < 2 ^ 256 := v.isLt
  simp only [wordAt_toNat, Fin.sum_univ_eight]
  norm_num at hv ⊢
  omega

/-- Settles O11, word by word of `toNat_eq_sum_wordAt`. -/
theorem wideRegistersAreLittleEndian : Obligations.WideRegistersAreLittleEndian := fun s i =>
  ⟨toNat_eq_sum_wordAt s.fregs[i], toNat_eq_sum_wordAt s.pregs[i].x,
    toNat_eq_sum_wordAt s.pregs[i].y, toNat_eq_sum_wordAt s.cp, toNat_eq_sum_wordAt s.cn⟩

/-- `STATUS` outside BUSY as the sum the spec's bit positions give (spec R29). -/
theorem State.statusWord_eq_namedWord (s : State) : s.statusWord = namedWord s .status := by
  cases hm : s.mode
  all_goals
    simp only [State.statusWord, assembleStatus, State.busyBit, State.faultBit, namedWord, hm,
      Bool.toNat_true, Bool.toNat_false]
    exact congrArg (BitVec.ofNat 32) (by omega)

/-- The word read at a location is the one the spec names (spec R29 to R36, R61). -/
theorem State.readLoc_eq_namedWord (s : State) (l : Loc) : s.readLoc l = namedWord s l := by
  cases l with
  | cmd | faultcmd | arga | argb | ca | cb | memlim => rfl
  | status => exact s.statusWord_eq_namedWord
  | err => exact (BitVec.ofNat_toNat 32 s.err).symm
  | cp k | cn k | f i k | px i k | py i k => exact wordAt_eq_ofNat _ k

end Sys2Proof.Machine
end

section
/-! PROOFS. The engine's step on the word in flight, the issue of a command, and `STATUS` while BUSY
(O5, O6, O13). -/

namespace Sys2Proof.Machine

open Sys2Proof.Claims

/-- From `withFetchWord` the next event is the engine's, on the state an accepted `CMD` write leaves
(spec R66). -/
theorem step_withFetchWord (s : State) (w : Word32) :
    step (s.withFetchWord 32 w.toNat) = engineStep { s with mode := .busy w, done := false } := by
  rw [step_of_input (e := .engine) (rest := s.inputs) rfl, deliver_engine, State.withFetchWord,
    BitVec.ofNat_toNat, BitVec.setWidth_eq]

/-- Settles O5: each step is the engine's, and the engine executes the decoded command. -/
theorem stepRunsDecodedCommand : Obligations.StepRunsDecodedCommand := by
  intro s w
  have hpending (rest : List Input) (hin : s.inputs = .engine :: rest) :
      step s = engineStep { s with inputs := rest } :=
    (step_of_input hin).trans (deliver_engine _)
  refine ⟨fun _ hin => step_of_no_input hin, fun rest _ hin => hpending rest hin,
    step_withFetchWord s w, fun i hd => ⟨fun hm hin => ?_, fun rest hm hin => ?_, ?_⟩⟩
  · rw [step_of_no_input hin, engineStep_of_decoded hm hd]
  · rw [hpending rest hin, engineStep_of_decoded (s := { s with inputs := rest }) hm hd]
  · rw [step_withFetchWord, engineStep_of_decoded rfl hd]

theorem encode_fack : encode .fack = 0x01000000 := by decide

theorem busWrite_of_busy {s : State} {w : Word32} (hm : s.mode = .busy w) (addr width : Nat)
    (v : Word32) : busWrite addr width v s = .next s.refuseWrite := by
  simp only [busWrite, hm]

theorem busWrite_of_width_ne {width : Nat} (hwidth : width ≠ 4) (addr : Nat) (v : Word32)
    (s : State) : busWrite addr width v s = .next s.refuseWrite := by
  cases hm : s.mode <;> simp [busWrite, hm, hwidth]

theorem busWrite_cmd_of_idle {s : State} (hm : s.mode = .idle) (w : Word32) :
    busWrite 0 4 w s = .next (s.acceptCommand w) := by
  simp only [busWrite, hm]
  rfl

theorem busWrite_fack_of_faulted {s : State} (hm : s.mode = .faulted) :
    busWrite 0 4 0x01000000 s = .next (s.answer (.write .ok)).acknowledge.complete := by
  simp only [busWrite, hm]
  rfl

/-- Outside IDLE's `CMD` and read/write words and FAULTED's FACK every write is refused (spec R64, R66,
R68). -/
theorem busWrite_eq_refuseWrite {s : State} {addr : Nat} {v : Word32} (width : Nat)
    (hidle : s.mode = .idle → ∀ l, locate addr = some l → l ≠ .cmd ∧ l.writable = false)
    (hfaulted : s.mode = .faulted → locate addr = some .cmd → v ≠ encode .fack) :
    busWrite addr width v s = .next s.refuseWrite := by
  rcases busWrite_cases addr width v s with ⟨hm, hl, -⟩ | ⟨hm, l, hl, hw, -⟩ | ⟨hm, hl, hv, -⟩ | h
  · exact absurd rfl (hidle hm _ hl).1
  · exact nomatch (hidle hm l hl).2.symm.trans hw
  · exact absurd hv (hfaulted hm hl)
  · exact h

/-- Settles O6, mode by mode. -/
theorem cmdWriteIssuesCommand : Obligations.CmdWriteIssuesCommand := by
  intro s w rest hin
  rw [step_of_input hin, deliver_write]
  refine ⟨fun hm => ?_, fun hm hw => ?_, fun hm hw => ?_, fun v hm => ?_⟩
  · exact busWrite_cmd_of_idle (s := { s with inputs := rest }) hm w
  · subst hw
    exact busWrite_fack_of_faulted (s := { s with inputs := rest }) hm
  · exact busWrite_eq_refuseWrite (s := { s with inputs := rest }) 4
      (fun hidle => nomatch hm.symm.trans hidle) fun _ _ => encode_fack ▸ hw
  · exact busWrite_of_busy (s := { s with inputs := rest }) hm 0 4 w

theorem busRead_status_of_busy {s : State} {w : Word32} (hm : s.mode = .busy w) :
    busRead 4 4 s =
      (s.answerRead
        (statusWhileBusy (Config.busyStatusPick s.freeCount) s s.afterCommand)).useFree := by
  simp only [busRead, hm]
  rfl

/-- The engine's step of the command in flight is what a `STATUS` read may anticipate (spec R67). -/
theorem State.afterCommand_of_next {s t : State} (h : engineStep s = .next t) :
    s.afterCommand = t := by
  simp only [State.afterCommand, h]

/-- `d` is a `STATUS` word of BUSY, with each of the three flags that of one of the two states (spec
R67). -/
def ShowsBusyStatus (d : Word32) (before after : State) : Prop :=
  d.getLsbD 0 = true ∧ d.getLsbD 1 = false ∧ d.getLsbD 2 = false ∧
    (d.getLsbD 3 = before.t ∨ d.getLsbD 3 = after.t) ∧
    (d.getLsbD 4 = before.cvalid ∨ d.getLsbD 4 = after.cvalid) ∧
    (d.getLsbD 5 = before.ovalid ∨ d.getLsbD 5 = after.ovalid) ∧
    ∀ n, 6 ≤ n → d.getLsbD n = false

theorem statusWhileBusy_showsBusyStatus (pick : BitVec 3) (before after : State) :
    ShowsBusyStatus (statusWhileBusy pick before after) before after := by
  unfold ShowsBusyStatus statusWhileBusy
  obtain ⟨hbusy, hdone, hfault, ht, hcvalid, hovalid⟩ :=
    assembleStatus_low_bits true false false (if pick[0] then after.t else before.t)
      (if pick[1] then after.cvalid else before.cvalid)
      (if pick[2] then after.ovalid else before.ovalid)
  rw [ht, hcvalid, hovalid]
  exact ⟨hbusy, hdone, hfault, (ite_eq_or_eq ..).symm, (ite_eq_or_eq ..).symm,
    (ite_eq_or_eq ..).symm, fun n hn => assembleStatus_high_bits _ _ _ _ _ _ hn⟩

/-- Settles O13: the bits of `statusWhileBusy`, whichever values are picked. -/
theorem statusReadWhileBusy : Obligations.StatusWhileBusy := by
  intro s w rest hm hin after hafter
  refine ⟨statusWhileBusy (Config.busyStatusPick s.freeCount) s after, s.freeCount + 1, ?_,
    statusWhileBusy_showsBusyStatus _ s after⟩
  rw [step_of_input hin, deliver_read,
    busRead_status_of_busy (s := { s with inputs := rest }) hm, State.afterCommand_of_next hafter]
  rfl

end Sys2Proof.Machine
end

section
/-! PROOFS. Reads and refused transactions (O7, O9). -/

namespace Sys2Proof.Machine

open Sys2Proof.Claims

/-- The read/write words are those of the map (spec R61). -/
theorem Loc.writable_iff_readWrite (l : Loc) : l.writable = true ↔ readWrite l := by
  cases l <;> simp [Loc.writable, readWrite]

/-- A read that is narrow, of no mapped word, or while BUSY of another word than `STATUS` is refused
(spec R64, R67). -/
theorem busRead_eq_refuseRead {s : State} {addr width : Nat}
    (h : width ≠ 4 ∨ (∀ l, addr ≠ address l) ∨ (addr ≠ 4 ∧ ∃ w, s.mode = .busy w)) :
    busRead addr width s = s.refuseRead := by
  rcases h with hwidth | hnone | ⟨hstatus, w, hm⟩
  · cases hm : s.mode <;> simp [busRead, hm, hwidth]
  · have hloc := locate_eq_none_iff.mpr hnone
    cases hm : s.mode <;> simp [busRead, hm, hloc]
  · have hloc : locate addr ≠ some .status := fun hl => hstatus (address_eq_of_locate hl)
    simp [busRead, hm, hloc]

theorem step_refusedRead {s : State} {addr width : Nat} {rest : List Input}
    (hin : s.inputs = .read addr width :: rest)
    (h : width ≠ 4 ∨ (∀ l, addr ≠ address l) ∨ (addr ≠ 4 ∧ ∃ w, s.mode = .busy w)) :
    ∃ d k, step s = .next { s with inputs := rest, reply := .read .error d, freeCount := k } := by
  rw [step_of_input hin, deliver_read, busRead_eq_refuseRead (s := { s with inputs := rest }) h]
  exact ⟨_, _, rfl⟩

/-- Settles O7: outside BUSY a mapped word is answered, any other read refused. -/
theorem readsReturnTheMapAndChangeNothing : Obligations.ReadsReturnTheMapAndChangeNothing := by
  intro s addr width rest hin
  refine ⟨fun hm l hl hwidth => ?_, fun h => step_refusedRead hin (or_left_comm.mp h)⟩
  subst hl hwidth
  rw [step_of_input hin, deliver_read,
    busRead_of_located (s := { s with inputs := rest }) hm (locate_address l),
    State.readLoc_eq_namedWord]
  rfl

/-- Settles O9: each of the five reasons rules out every accepted write; the reads are those of
`step_refusedRead`. -/
theorem refusedTransactionsChangeNothing : Obligations.RefusedTransactionsChangeNothing := by
  intro s addr width rest
  refine ⟨fun v hin h => ?_, step_refusedRead⟩
  rw [step_of_input hin, deliver_write]
  suffices hrefused : busWrite addr width v { s with inputs := rest } =
      .next ({ s with inputs := rest } : State).refuseWrite from hrefused
  rcases h with hwidth | hnone | ⟨l, rfl, hro, hcmd⟩ | ⟨hm, hv⟩ | ⟨w, hm⟩
  · exact busWrite_of_width_ne hwidth addr v _
  · have hloc := locate_eq_none_iff.mpr hnone
    exact busWrite_eq_refuseWrite width (fun _ _ hl => nomatch hloc.symm.trans hl)
      fun _ hl => nomatch hloc.symm.trans hl
  · have hloc := locate_address l
    refine busWrite_eq_refuseWrite width (fun _ l' hl => ?_) fun _ hl => ?_
    · obtain rfl := Option.some.inj (hloc.symm.trans hl)
      exact ⟨hcmd, Bool.eq_false_iff.mpr fun hw => hro (l.writable_iff_readWrite.mp hw)⟩
    · exact absurd (Option.some.inj (hloc.symm.trans hl)) hcmd
  · refine busWrite_eq_refuseWrite width (fun hidle => nomatch hm.symm.trans hidle)
      fun _ hl hfack => ?_
    exact hv ⟨address_eq_of_locate hl, hfack.trans encode_fack⟩
  · exact busWrite_of_busy (s := { s with inputs := rest }) hm addr width v

end Sys2Proof.Machine
end

section
/-! PROOFS. A write replaces one word of the map (O8). -/

namespace Sys2Proof.Machine

open Sys2Proof.Claims

theorem State.readF_writeF (s : State) (i j : FReg) (v : Word256) :
    (s.writeF i v).readF j = if j = i then v else s.readF j := by
  split
  next h => rw [h, s.readF_writeF_same]
  next h => exact s.readF_writeF_ne v (Ne.symm h)

theorem State.readP_writeP (s : State) (i j : PReg) (Q : Point) :
    (s.writeP i Q).readP j = if j = i then Q else s.readP j := by
  split
  next h => rw [h, s.readP_writeP_same]
  next h => exact s.readP_writeP_ne Q (Ne.symm h)

/-- Among the registers `regs`, replacing word `k` of register `i` leaves every other word (spec
R63). -/
theorem wordAt_replace_ne (regs : Fin 16 → Word256) {i i' : Fin 16} {k k' : Fin 8}
    (h : i' = i → k' ≠ k) (v : Word32) :
    wordAt (if i' = i then setWordAt (regs i) k v else regs i') k' = wordAt (regs i') k' := by
  split
  next hi => rw [wordAt_setWordAt_ne _ v (Ne.symm (h hi)), hi]
  next => rfl

theorem State.readLoc_writeLoc_same (s : State) {l : Loc} (hl : l.writable = true) (v : Word32) :
    (s.writeLoc l v).readLoc l = v := by
  cases l with
  | arga | argb => rfl
  | f i k | px i k | py i k =>
    simp only [State.writeLoc, State.readLoc, State.readF_writeF_same, State.readP_writeP_same,
      wordAt_setWordAt_same]
  | _ => exact nomatch hl

/-- A write to one word of the map leaves the others, those of the same register included (spec
R63). -/
theorem State.readLoc_writeLoc_ne (s : State) {l l' : Loc} (h : l' ≠ l) (v : Word32) :
    (s.writeLoc l v).readLoc l' = s.readLoc l' := by
  cases l with
  | arga =>
    cases l' with
    | arga => exact absurd rfl h
    | _ => rfl
  | argb =>
    cases l' with
    | argb => exact absurd rfl h
    | _ => rfl
  | f i k =>
    cases l' with
    | f i' k' =>
      simp only [State.readLoc, State.writeLoc, State.readF_writeF]
      exact wordAt_replace_ne s.readF (by simpa using h) v
    | _ => rfl
  | px i k =>
    cases l' with
    | px i' k' =>
      simp only [State.readLoc, State.writeLoc, State.readP_writeP, apply_ite Point.x]
      exact wordAt_replace_ne (fun j => (s.readP j).x) (by simpa using h) v
    | py i' k' =>
      simp only [State.readLoc, State.writeLoc, State.readP_writeP, apply_ite Point.y]
      exact congrArg (wordAt · k') (ite_eq_right_iff.mpr fun hi => by rw [hi])
    | _ => rfl
  | py i k =>
    cases l' with
    | py i' k' =>
      simp only [State.readLoc, State.writeLoc, State.readP_writeP, apply_ite Point.y]
      exact wordAt_replace_ne (fun j => (s.readP j).y) (by simpa using h) v
    | px i' k' =>
      simp only [State.readLoc, State.writeLoc, State.readP_writeP, apply_ite Point.x]
      exact congrArg (wordAt · k') (ite_eq_right_iff.mpr fun hi => by rw [hi])
    | _ => rfl
  | _ => rfl

theorem State.writeLoc_eq_update (s : State) (l : Loc) (v : Word32) :
    s.writeLoc l v = { s with fregs := (s.writeLoc l v).fregs, pregs := (s.writeLoc l v).pregs,
                              arga := (s.writeLoc l v).arga, argb := (s.writeLoc l v).argb } := by
  cases l <;> rfl

theorem busWrite_of_readWrite {s : State} (hm : s.mode = .idle) {l : Loc} (hl : readWrite l)
    (v : Word32) :
    busWrite (address l) 4 v s = .next ((s.writeLoc l v).answer (.write .ok)) := by
  have hw := l.writable_iff_readWrite.mpr hl
  simp only [busWrite, hm, locate_address]
  cases l with
  | arga | argb | f | px | py => rfl
  | _ => exact nomatch hw

/-- Settles O8: the registers are those `writeLoc` leaves. -/
theorem writesReplaceOneWord : Obligations.WritesReplaceOneWord := by
  intro s l v rest hin hm hl
  have hw := l.writable_iff_readWrite.mpr hl
  refine ⟨(s.writeLoc l v).fregs, (s.writeLoc l v).pregs, (s.writeLoc l v).arga,
    (s.writeLoc l v).argb, ?_, fun l' => ?_⟩
  · rw [step_of_input hin, deliver_write,
      busWrite_of_readWrite (s := { s with inputs := rest }) hm hl]
    cases l <;> rfl
  · rw [← s.writeLoc_eq_update]
    split
    next h => rw [h, s.readLoc_writeLoc_same hw]
    next h => exact s.readLoc_writeLoc_ne h v

end Sys2Proof.Machine
end

section
/-! PROOFS. A word is its five fields, and on fields the decoder and the encoder are inverse to each
other (O1, O3). -/

namespace Sys2Proof

/-- The formula of spec R91 with `w[11:0]` as the last summand. -/
theorem toNat_eq_sum_fields (w : Word32) :
    w.toNat = (CmdFields.ofWord w).opcode.toNat * 2 ^ 24 + (CmdFields.ofWord w).rd.val * 2 ^ 20 +
      (CmdFields.ofWord w).rs1.val * 2 ^ 16 + (CmdFields.ofWord w).rs2.val * 2 ^ 12 +
      (CmdFields.ofWord w).zero.toNat := by
  have hw : w.toNat < 2 ^ 32 := w.isLt
  simp only [CmdFields.ofWord, nibbleAt, BitVec.toNat_ofNat]
  omega

theorem CmdFields.ofWord_injective : Function.Injective CmdFields.ofWord := fun w w' h =>
  BitVec.eq_of_toNat_eq (by rw [toNat_eq_sum_fields w, toNat_eq_sum_fields w', h])

theorem CmdFields.accept_eq_ok_iff {f : CmdFields} {unused : List (Fin 16)} {i j : Instr} :
    f.accept unused i = .ok j ↔ f.zero = 0 ∧ (∀ u ∈ unused, u = 0) ∧ i = j := by
  have hany : unused.any (· ≠ 0) = true ↔ ¬ ∀ u ∈ unused, u = 0 := by simp
  unfold CmdFields.accept
  split
  next hz => exact ⟨nofun, fun ⟨hclear, _, _⟩ => absurd hclear hz⟩
  next hz =>
    split
    next hset => exact ⟨nofun, fun ⟨_, hclear, _⟩ => absurd hclear (hany.mp hset)⟩
    next hset =>
      have hclear := not_not.mp (hany.not.mp hset)
      exact ⟨fun h => ⟨not_not.mp hz, hclear, Except.ok.inj h⟩, fun ⟨_, _, hij⟩ => congrArg _ hij⟩

theorem CmdFields.eq_ofWord_assemble {f : CmdFields} {op : Nat} {rd rs1 rs2 : Fin 16}
    (hop : f.opcode.toNat = op) (hz : f.zero = 0) (hregs : f.rd = rd ∧ f.rs1 = rs1 ∧ f.rs2 = rs2) :
    f = CmdFields.ofWord (assemble op rd rs1 rs2) := by
  obtain ⟨rfl, rfl, rfl⟩ := hregs
  have hlt : op < 256 := hop ▸ f.opcode.isLt
  rw [ofWord_assemble hlt, ← hop, BitVec.ofNat_toNat, BitVec.setWidth_eq, ← hz]

/-- In each row an accepted field is an operand of the command or 0, as in the command's own word
(spec R94, R95). -/
theorem eq_ofWord_encode_of_decodeFields {f : CmdFields} {i : Instr}
    (h : decodeFields f = .ok i) : f = CmdFields.ofWord (encode i) := by
  unfold decodeFields at h
  split at h
  case h_22 => exact nomatch h
  all_goals
    next hop =>
    obtain ⟨hz, hunused, rfl⟩ := CmdFields.accept_eq_ok_iff.mp h
    exact CmdFields.eq_ofWord_assemble hop hz (by simp_all)

theorem decode_encode (i : Instr) : decode (encode i) = .ok i := by
  cases i
  all_goals
    rw [decode, encode, ofWord_assemble (by decide)]
    rfl

theorem encode_of_decode {w : Word32} {i : Instr} (h : decode w = .ok i) : encode i = w :=
  (CmdFields.ofWord_injective (eq_ofWord_encode_of_decodeFields h)).symm

/-- Settles O1: `encode_of_decode` inverts the rows, `decode_encode` reads the assembled fields. -/
theorem decodeAndEncodeAgree : Obligations.DecodeAndEncodeAgree := fun _ i =>
  ⟨encode_of_decode, fun h => h ▸ decode_encode i⟩

/-- Settles O3, by running the decoder on each word. -/
theorem specWordsDecode : Obligations.SpecWordsDecode :=
  ⟨rfl, rfl, rfl, rfl, rfl, rfl, rfl, rfl⟩

end Sys2Proof
end

section
/-! PROOFS. The masks of the opcode table say of a word's fields what the decoder checks (O2). -/

namespace Sys2Proof

open Sys2Proof.Claims

/-- The fields `f` are those of a command of row `r`: the row's opcode, and 0 in `w[11:0]` and in every
register field the row does not use (spec R95). -/
structure OpRow.Accepts (r : OpRow) (f : CmdFields) : Prop where
  opcode : f.opcode = r.opcode
  zero : f.zero = 0
  rd : r.rd = none → f.rd = 0
  rs1 : r.rs1 = none → f.rs1 = 0
  rs2 : r.rs2 = none → f.rs2 = 0

/-! ### Masks -/

/-- What a row's mask holds in the place of a register field: all four bits where the row leaves the
field unused (spec R94). -/
def regMask (column : Option RegFile) : Fin 16 :=
  match column with
  | none => 15
  | some _ => 0

/-- The columns `match` and `mask` of the opcode table follow from its other columns (spec R94). -/
theorem fields_of_pattern_and_mask : ∀ r ∈ opcodeTable,
    CmdFields.ofWord r.pattern = ⟨r.opcode, 0, 0, 0, 0⟩ ∧
    CmdFields.ofWord r.mask = ⟨0xFF, regMask r.rd, regMask r.rs1, regMask r.rs2, 0xFFF⟩ := by
  decide

theorem nibbleAt_and (w m : Word32) (lo : Nat) :
    nibbleAt (w &&& m) lo = nibbleAt w lo &&& nibbleAt m lo := by
  apply Fin.ext
  simp only [nibbleAt, BitVec.toNat_and, Nat.and_div_two_pow, Fin.and_val]
  exact Nat.and_mod_two_pow (n := 4)

theorem CmdFields.ofWord_and (w m : Word32) :
    CmdFields.ofWord (w &&& m) =
      ⟨(CmdFields.ofWord w).opcode &&& (CmdFields.ofWord m).opcode,
        (CmdFields.ofWord w).rd &&& (CmdFields.ofWord m).rd,
        (CmdFields.ofWord w).rs1 &&& (CmdFields.ofWord m).rs1,
        (CmdFields.ofWord w).rs2 &&& (CmdFields.ofWord m).rs2,
        (CmdFields.ofWord w).zero &&& (CmdFields.ofWord m).zero⟩ := by
  simp only [CmdFields.ofWord, nibbleAt_and, BitVec.toNat_and, Nat.and_div_two_pow,
    BitVec.ofNat_and]

theorem and_regMask_eq_zero_iff (column : Option RegFile) (x : Fin 16) :
    x &&& regMask column = 0 ↔ (column = none → x = 0) := by
  revert x
  rcases column with _ | _ | _ <;> decide

/-- A word matches a row exactly when its fields are those of a command of the row. -/
theorem and_mask_eq_pattern_iff {r : OpRow} (hr : r ∈ opcodeTable) (w : Word32) :
    w &&& r.mask = r.pattern ↔ r.Accepts (CmdFields.ofWord w) := by
  obtain ⟨hpattern, hmask⟩ := fields_of_pattern_and_mask r hr
  have hopcode (x : BitVec 8) : x &&& 0xFF = x := BitVec.and_allOnes
  have hzero (x : BitVec 12) : x &&& 0xFFF = x := BitVec.and_allOnes
  rw [← CmdFields.ofWord_injective.eq_iff, CmdFields.ofWord_and, hpattern, hmask,
    CmdFields.mk.injEq, hopcode, hzero]
  simp only [and_regMask_eq_zero_iff]
  exact ⟨fun ⟨hop, hrd, hrs1, hrs2, hz⟩ => ⟨hop, hz, hrd, hrs1, hrs2⟩,
    fun ⟨hop, hz, hrd, hrs1, hrs2⟩ => ⟨hop, hrd, hrs1, hrs2, hz⟩⟩

/-! ### Rows and the decoder -/

/-- No opcode stands in two rows (spec R94). -/
theorem opcodes_nodup : (opcodeTable.map OpRow.opcode).Nodup := by decide

theorem OpRow.Accepts.row_unique {r r' : OpRow} {f : CmdFields} (hr : r ∈ opcodeTable)
    (hr' : r' ∈ opcodeTable) (h : r.Accepts f) (h' : r'.Accepts f) : r = r' :=
  List.inj_on_of_nodup_map opcodes_nodup hr hr' (h.opcode.symm.trans h'.opcode)

/-- Each row's branch of the decoder accepts the row's fields. -/
theorem decodeFields_of_accepts {r : OpRow} {f : CmdFields} (hr : r ∈ opcodeTable)
    (h : r.Accepts f) : ∃ i, decodeFields f = .ok i ∧ mnemonic i = r.mnemonic := by
  obtain ⟨hop, hz, hrd, hrs1, hrs2⟩ := h
  obtain ⟨op, rd, rs1, rs2, zero⟩ := f
  subst hop
  fin_cases hr
  all_goals
    refine ⟨_, CmdFields.accept_eq_ok_iff.mpr ⟨hz, ?_, rfl⟩, rfl⟩
    simp_all

/-- The three checks of spec R95 find the row of a well-formed field set. -/
theorem CmdFields.exists_row_of_wellFormed {f : CmdFields} (h : f.wellFormed = true) :
    ∃ r ∈ opcodeTable, r.Accepts f := by
  rw [CmdFields.wellFormed, Bool.and_eq_true, Bool.and_eq_true] at h
  obtain ⟨⟨hknown, hclear⟩, hunused⟩ := h
  obtain ⟨r, hrow⟩ := Option.isSome_iff_exists.mp hknown
  have hop : r.opcode = f.opcode := by simpa using List.find?_some hrow
  have hz : f.zero = 0 := by simpa [CmdFields.zeroClear] using hclear
  simp only [CmdFields.unusedClear, hrow, Bool.and_eq_true, Bool.or_eq_true,
    Option.isSome_iff_ne_none, beq_iff_eq, or_iff_not_imp_left, not_not] at hunused
  obtain ⟨⟨hrd, hrs1⟩, hrs2⟩ := hunused
  exact ⟨r, List.mem_of_find?_eq_some hrow, hop.symm, hz, hrd, hrs1, hrs2⟩

open Sys2Proof.Laws in
/-- The family EncodesWellFormed for all commands. -/
theorem Instr.wellFormed_eq_true (i : Instr) : i.wellFormed = true :=
  match i with
  | .fack => EncodesWellFormed.fack
  | .ptZero rd => EncodesWellFormed.ptZero rd
  | .ptSet rd rs1 rs2 => EncodesWellFormed.ptSet rd rs1 rs2
  | .ptGetx rd rs1 => EncodesWellFormed.ptGetx rd rs1
  | .ptGety rd rs1 => EncodesWellFormed.ptGety rd rs1
  | .ptIsz rs1 => EncodesWellFormed.ptIsz rs1
  | .ptEq rs1 rs2 => EncodesWellFormed.ptEq rs1 rs2
  | .crvInit rs1 => EncodesWellFormed.crvInit rs1
  | .crvSecp => EncodesWellFormed.crvSecp
  | .crvGetp rd => EncodesWellFormed.crvGetp rd
  | .ordGet rd => EncodesWellFormed.ordGet rd
  | .ordSet rs1 => EncodesWellFormed.ordSet rs1
  | .haspt rs1 => EncodesWellFormed.haspt rs1
  | .pneg rd rs1 => EncodesWellFormed.pneg rd rs1
  | .padd rd rs1 rs2 => EncodesWellFormed.padd rd rs1 rs2
  | .pdbl rd rs1 => EncodesWellFormed.pdbl rd rs1
  | .smul rd rs1 rs2 => EncodesWellFormed.smul rd rs1 rs2
  | .fmul rd rs1 rs2 => EncodesWellFormed.fmul rd rs1 rs2
  | .finv rd rs1 => EncodesWellFormed.finv rd rs1
  | .fsqrt rd rs1 => EncodesWellFormed.fsqrt rd rs1
  | .dlog rd rs1 rs2 => EncodesWellFormed.dlog rd rs1 rs2

/-- Every decodable word matches a row: it is the word of its command, which is well formed. -/
theorem exists_row_of_decode {w : Word32} {i : Instr} (h : decode w = .ok i) :
    ∃ r ∈ opcodeTable, w &&& r.mask = r.pattern := by
  obtain ⟨r, hr, haccepts⟩ := CmdFields.exists_row_of_wellFormed i.wellFormed_eq_true
  rw [encode_of_decode h] at haccepts
  exact ⟨r, hr, (and_mask_eq_pattern_iff hr w).mpr haccepts⟩

/-- Settles O2: matching a row is being accepted by it, the decoder accepts what a row accepts and
nothing else, and a row is known by its opcode. -/
theorem decodeFollowsOpcodeTable : Obligations.DecodeFollowsOpcodeTable := by
  refine fun w => ⟨fun r hr hw => ?_, fun hnone => ?_, fun r hr r' hr' hw hw' => ?_⟩
  · exact decodeFields_of_accepts hr ((and_mask_eq_pattern_iff hr w).mp hw)
  · cases hd : decode w with
    | error e => exact ⟨e, rfl⟩
    | ok i =>
      obtain ⟨r, hr, hw⟩ := exists_row_of_decode hd
      exact absurd hw (hnone r hr)
  · exact ((and_mask_eq_pattern_iff hr w).mp hw).row_unique hr hr'
      ((and_mask_eq_pattern_iff hr' w).mp hw')

end Sys2Proof
end

section
/-! PROOFS. The frame of a command: what its effect leaves as it was (O25). -/

namespace Sys2Proof.Machine

open Sys2Proof.Claims

theorem CommandEffect.fregs_eq {i : Instr} {s s' : State} (h : CommandEffect i s s') (r : FReg)
    (hr : destF i ≠ some r) : s'.fregs[r] = s.fregs[r] := by
  cases h with
  | field rd v hrd | solution rd v hrd =>
    exact s.readF_writeF_ne v fun hrdr => hr (hrdr ▸ hrd)
  | acknowledge | point | flag | curve | order => rfl

theorem CommandEffect.pregs_eq {i : Instr} {s s' : State} (h : CommandEffect i s s') (r : PReg)
    (hr : destP i ≠ some r) : s'.pregs[r] = s.pregs[r] := by
  cases h with
  | point rd Q hrd => exact s.readP_writeP_ne Q fun hrdr => hr (hrdr ▸ hrd)
  | acknowledge | field | flag | curve | order | solution => rfl

theorem writesOrder_of_isConstruction {i : Instr} (h : isConstruction i = true) :
    writesOrder i = true := by
  cases i with
  | crvInit | crvSecp => rfl
  | _ => exact nomatch h

theorem CommandEffect.order_eq {i : Instr} {s s' : State} (h : CommandEffect i s s')
    (hi : writesOrder i = false) : s'.cn = s.cn ∧ s'.ovalid = s.ovalid := by
  cases h with
  | curve _ _ _ _ _ hc => exact nomatch hi.symm.trans (writesOrder_of_isConstruction hc)
  | order _ ho => exact nomatch hi.symm.trans ho
  | acknowledge | field | point | flag | solution => exact ⟨rfl, rfl⟩

theorem CommandEffect.table_eq {i : Instr} {s s' : State} (h : CommandEffect i s s')
    (hi : isDlog i = false) : s'.table = s.table ∧ s'.freeCount = s.freeCount := by
  cases h with
  | solution _ _ _ hd => exact nomatch hi.symm.trans hd
  | acknowledge | field | point | flag | curve | order => exact ⟨rfl, rfl⟩

/-- `ARGA`, `ARGB` and the port are no command's to write (spec R32, R92). -/
theorem CommandEffect.port_eq {i : Instr} {s s' : State} (h : CommandEffect i s s') :
    s'.arga = s.arga ∧ s'.argb = s.argb ∧ s'.inputs = s.inputs ∧ s'.reply = s.reply := by
  cases h <;> exact ⟨rfl, rfl, rfl, rfl⟩

theorem faultBase_table_eq {i : Instr} (s : State) (hi : isDlog i = false) :
    (faultBase i s).table = s.table ∧ (faultBase i s).freeCount = s.freeCount := by
  rcases faultBase_cases i s with h | ⟨hd, -⟩
  · rw [h]
    exact ⟨rfl, rfl⟩
  · exact nomatch hi.symm.trans hd

/-- A fault is raised on the state before the command, the hidden table and the model's free-value
index apart (spec R233, U5). -/
theorem faultBase_eq_update (i : Instr) (s : State) :
    ∃ tab k, faultBase i s = { s with table := tab, freeCount := k } := by
  rcases faultBase_cases i s with h | ⟨-, h⟩ <;> exact ⟨_, _, h⟩

/-- Settles O25: the frame of the command's effect, or of the state its fault is raised on. -/
theorem commandsChangeOnlyTheirDestination : Obligations.CommandsChangeOnlyTheirDestination := by
  intro i s t h
  rcases exec_cases h with ⟨s', hr, rfl⟩ | ⟨e, rfl⟩
  · have he := hr.effect
    exact ⟨he.fregs_eq, he.pregs_eq,
      fun hi => he.t_eq_or_isPredicate.resolve_right (Bool.eq_false_iff.mp hi),
      fun hi => he.sameCurve_or_isConstruction.resolve_right (Bool.eq_false_iff.mp hi),
      he.order_eq, he.table_eq, he.port_eq⟩
  · have htable := faultBase_table_eq (i := i) s
    obtain ⟨tab, k, hbase⟩ := faultBase_eq_update i s
    rw [hbase] at htable ⊢
    exact ⟨fun _ _ => rfl, fun _ _ => rfl, fun _ => rfl, fun _ => SameCurve.refl s,
      fun _ => ⟨rfl, rfl⟩, htable, rfl, rfl, rfl, rfl⟩

end Sys2Proof.Machine
end

section
/-! PROOFS. The Point commands: each completes in every state, and what it writes (O29, O30). -/

namespace Sys2Proof.Machine

open Sys2Proof.Claims

theorem assemble_eq_word (op : Nat) (rd rs1 rs2 : Fin 16) :
    assemble op rd rs1 rs2 = word op rd rs1 rs2 := rfl

theorem exec_ptZero (d : PReg) (s : State) :
    exec (.ptZero d) s = .next (s.writeP d identityPoint).complete := rfl

theorem exec_ptSet (d : PReg) (a b : FReg) (s : State) :
    exec (.ptSet d a b) s = .next (s.writeP d ⟨s.readF a, s.readF b⟩).complete := rfl

theorem exec_ptGetx (d : FReg) (a : PReg) (s : State) :
    exec (.ptGetx d a) s = .next (s.writeF d (s.readP a).x).complete := rfl

theorem exec_ptGety (d : FReg) (a : PReg) (s : State) :
    exec (.ptGety d a) s = .next (s.writeF d (s.readP a).y).complete := rfl

theorem exec_ptIsz (a : PReg) (s : State) :
    exec (.ptIsz a) s = .next (s.setT (isZero (s.readP a))).complete := rfl

theorem exec_ptEq (a b : PReg) (s : State) :
    exec (.ptEq a b) s = .next (s.setT (samePoint (s.readP a) (s.readP b))).complete := rfl

/-- The test of spec R120 on the integers the two words hold (R9). -/
theorem isZero_eq_decide_toNat (Q : Point) :
    isZero Q = decide (Q.x.toNat = 0 ∧ Q.y.toNat = 0) := by
  have hword : ∀ v : Word256, v = 0 ↔ v.toNat = 0 := fun _ => BitVec.toNat_eq
  rw [Bool.eq_iff_iff, isZero, Bool.and_eq_true, beq_iff_eq, beq_iff_eq, hword, hword,
    decide_eq_true_iff]

theorem samePoint_eq_decide (Q1 Q2 : Point) :
    samePoint Q1 Q2 = decide (Q1.x = Q2.x ∧ Q1.y = Q2.y) := by
  rw [Bool.eq_iff_iff, samePoint, Bool.and_eq_true, beq_iff_eq, beq_iff_eq, decide_eq_true_iff]

/-- Settles O29: none of the four meanings has a fault branch; each is one register write, with the
operands read before it. -/
theorem pointValueCommands : Obligations.PointValueCommands := fun s =>
  ⟨fun d => ⟨assemble_eq_word _ d 0 0, exec_ptZero d s⟩,
    fun d a b => ⟨assemble_eq_word _ d a b, exec_ptSet d a b s⟩,
    fun d a => ⟨assemble_eq_word _ d a 0, exec_ptGetx d a s⟩,
    fun d a => ⟨assemble_eq_word _ d a 0, exec_ptGety d a s⟩⟩

/-- Settles O30: both predicates write `T` alone, with the value of a test on stored integers. -/
theorem pointPredicates : Obligations.PointPredicates := by
  refine fun s => ⟨fun a => ⟨assemble_eq_word _ 0 a 0, ?isz⟩,
    fun a b => ⟨assemble_eq_word _ 0 a b, ?eq⟩⟩
  case isz =>
    rw [exec_ptIsz, isZero_eq_decide_toNat]
    rfl
  case eq =>
    rw [exec_ptEq, samePoint_eq_decide]
    rfl

end Sys2Proof.Machine
end

section
/-! PROOFS. Curve construction, the prime and the supply of an order: what each command writes or
raises, and what changes the order (O31, O32, O33, O34). -/

namespace Sys2Proof.Machine

open Sys2Proof.Claims

/-- The discriminant of the signed coefficients, in the powers spec R142 writes. -/
theorem discriminant_sext32 (a b : Word32) :
    discriminant (sext32 a) (sext32 b) = 4 * a.toInt ^ 3 + 27 * b.toInt ^ 2 := by
  rw [discriminant, sext32_eq_toInt, sext32_eq_toInt]
  ring

theorem State.constructCurve_of_singular {s : State} {pp : Word256}
    (h : pp = 0 ∨ discriminant (sext32 s.arga) (sext32 s.argb) = 0) :
    s.constructCurve pp = .error .curveParams := by
  by_cases hp : pp = 0
  · exact if_pos hp
  · exact (if_neg hp).trans (if_pos (h.resolve_left hp))

/-- Without a curve a command that needs one raises E_NO_CURVE before anything else (spec R231). -/
theorem State.finish_needCurve_of_not_cvalid {s : State} (hc : s.cvalid = false) (w : Word32)
    (f : Curve → Except FaultCode State) :
    s.finish w (s.needCurve >>= f) = .next (s.raise .noCurve w) := by
  rw [State.needCurve_of_not_cvalid hc, except_error_bind, State.finish_error]

theorem State.finish_needCurve_of_cvalid {s : State} (hc : s.cvalid = true) (w : Word32)
    (f : Curve → Except FaultCode State) :
    s.finish w (s.needCurve >>= f) = s.finish w (f s.curve) := by
  rw [State.needCurve_of_cvalid hc, except_ok_bind]

theorem exec_crvInit (a : FReg) (s : State) :
    exec (.crvInit a) s = s.finish (word 0x20 0 a 0) (s.constructCurve (s.readF a)) := rfl

theorem exec_crvSecp (s : State) :
    exec .crvSecp s = .next ((s.setCurve 0 7 secpP).setOrder secpN true).complete := rfl

theorem exec_crvGetp (d : FReg) (s : State) :
    exec (.crvGetp d) s =
      s.finish (word 0x22 d 0 0) (s.needCurve >>= fun _ => .ok (s.writeF d s.cp)) := rfl

theorem exec_ordSet (a : FReg) (s : State) :
    exec (.ordSet a) s =
      s.finish (word 0x24 0 a 0) (s.needCurve >>= fun _ => .ok (s.setOrder (s.readF a) true)) := rfl

/-- Settles O31: the two tests of `constructCurve`, on the discriminant as the spec writes it. -/
theorem curveInitConstructsOrFaults : Obligations.CurveInitConstructsOrFaults := by
  intro s a
  rw [← discriminant_sext32, exec_crvInit]
  refine ⟨assemble_eq_word _ 0 a 0, fun hsingular => ?_, fun hp hd => ?_⟩
  · rw [State.constructCurve_of_singular (pp := s.readF a) hsingular]
    rfl
  · rw [(s.constructCurve_eq_ok_iff _ (s.readF a)).mpr ⟨hp, hd, rfl⟩]
    rfl

/-- SECP_P in the closed form of spec R144. -/
theorem secpP_eq : secpP = BitVec.ofNat 256 (2 ^ 256 - 2 ^ 32 - 977) := by decide

/-- Settles O32: CRV.SECP has no fault branch and reads no state. -/
theorem curveSecpConstructs : Obligations.CurveSecpConstructs := by
  refine ⟨assemble_eq_word _ 0 0 0, fun s => ?_⟩
  rw [exec_crvSecp, secpP_eq]
  rfl

/-- Settles O33, by whether there is a curve. -/
theorem primeRead : Obligations.PrimeRead := by
  intro s d
  rw [exec_crvGetp]
  refine ⟨assemble_eq_word _ d 0 0, fun hc => ?_, fun hc => ?_⟩
  · exact State.finish_needCurve_of_not_cvalid hc _ _
  · exact State.finish_needCurve_of_cvalid hc _ _

/-- The order registers of `t` are those of `s` (spec R31). -/
def SameOrder (s t : State) : Prop := t.cn = s.cn ∧ t.ovalid = s.ovalid

theorem SameOrder.refl (s : State) : SameOrder s s := ⟨rfl, rfl⟩

theorem faultBase_sameOrder (i : Instr) (s : State) : SameOrder s (faultBase i s) := by
  rcases faultBase_cases i s with h | ⟨-, h⟩ <;> rw [h] <;> exact SameOrder.refl s

/-- The order changes only where a command that writes it completes (spec R147). -/
theorem exec_sameOrder_or_writesOrder {i : Instr} {s t : State} (h : exec i s = .next t) :
    SameOrder s t ∨ (writesOrder i = true ∧ t.done = true) := by
  rcases exec_cases h with ⟨s', hr, rfl⟩ | ⟨e, rfl⟩
  · cases hi : writesOrder i with
    | true => exact .inr ⟨rfl, rfl⟩
    | false => exact .inl (hr.effect.order_eq hi)
  · exact .inl (faultBase_sameOrder i s)

/-- Settles O34: the two branches of ORD.SET, and the cases of a step, of which only a reset and a
command can change the order. -/
theorem orderSupply : Obligations.OrderSupply := by
  refine ⟨fun s a => ?_, fun s t hstep hne => ?_⟩
  · rw [exec_ordSet]
    refine ⟨assemble_eq_word _ 0 a 0, fun hc => ?_, fun hc => ?_⟩
    · exact State.finish_needCurve_of_not_cvalid hc _ _
    · exact State.finish_needCurve_of_cvalid hc _ _
  · cases step_cases hstep with
    | reset hin _ => exact .inl hin
    | command w i hm hd ht =>
      have hi := (exec_sameOrder_or_writesOrder ht).resolve_left hne
      exact .inr ⟨w, i, hm, hd, hi⟩
    | store l v _ _ ht =>
      have hsame : SameOrder s.popInput t :=
        ht ▸ ⟨s.popInput.writeLoc_cn l v, s.popInput.writeLoc_ovalid l v⟩
      exact absurd hsame hne
    | illegal _ _ _ _ ht | issue _ _ ht | acknowledge _ ht | answered _ _ ht =>
      have hsame : SameOrder s t := ht ▸ SameOrder.refl s
      exact absurd hsame hne

end Sys2Proof.Machine
end

section
/-! PROOFS. The exhaustive count is the number of affine solutions (O35). -/

namespace Sys2Proof.Machine

open Sys2Proof.Claims

theorem onCurve_eq_true_iff {c : Curve} (hp : 0 < c.p) (x y : Int) :
    onCurve c x y = true ↔ (y * y - (x * x * x + c.a * x + c.b)) % (c.p : Int) = 0 := by
  rw [onCurve, beq_iff_eq, residue_eq_zero_iff _ hp, Int.dvd_iff_emod_eq_zero]

theorem countColumn_eq_sum (c : Curve) (x ys : Nat) :
    countColumn c x ys = ∑ y ∈ Finset.range ys, (onCurve c x y).toNat := by
  induction ys with
  | zero => rfl
  | succ y ih => rw [countColumn, ih, Finset.sum_range_succ]

theorem countPairs_eq_sum (c : Curve) (xs : Nat) :
    countPairs c xs = ∑ x ∈ Finset.range xs, countColumn c x c.p := by
  induction xs with
  | zero => rfl
  | succ x ih => rw [countPairs, ih, Finset.sum_range_succ]

/-- Counting column by column counts every pair of `[0, p)^2` on the curve once (spec R140). -/
theorem countPairs_eq_card (c : Curve) : countPairs c c.p = (affineSolutions c).card := by
  simp only [countPairs_eq_sum, countColumn_eq_sum, affineSolutions, Finset.card_filter,
    Finset.sum_product]
  refine Finset.sum_congr rfl fun x hx => Finset.sum_congr rfl fun y _ => ?_
  have hp : 0 < c.p := Nat.zero_lt_of_lt (Finset.mem_range.mp hx)
  simp only [← onCurve_eq_true_iff hp, Bool.toNat, Bool.cond_eq_ite]

theorem countOrder_of_lt {c : Curve} (h : 1 + (affineSolutions c).card < 2 ^ 256) :
    countOrder c = .ok (1 + (affineSolutions c).card) := by
  rw [countOrder, countPairs_eq_card, if_neg (not_le.mpr h)]

theorem countOrder_of_le {c : Curve} (h : 2 ^ 256 ≤ 1 + (affineSolutions c).card) :
    countOrder c = .error .range := by
  rw [countOrder, countPairs_eq_card, if_pos h]

theorem State.groupOrder_of_ovalid {s : State} (h : s.ovalid = true) (c : Curve) :
    groupOrder c s.suppliedOrder = .ok s.cn.toNat := by
  rw [State.suppliedOrder, if_pos h, groupOrder]

theorem State.groupOrder_of_not_ovalid {s : State} (h : s.ovalid = false) (c : Curve) :
    groupOrder c s.suppliedOrder = countOrder c := by
  rw [State.suppliedOrder, if_neg (Bool.eq_false_iff.mp h), groupOrder]

/-- A register's own value is written back unchanged. -/
theorem toReg_toNat (v : Word256) : toReg v.toNat = v := by
  rw [toReg, BitVec.ofNat_toNat, BitVec.setWidth_eq]

theorem exec_ordGet (d : FReg) (s : State) :
    exec (.ordGet d) s =
      s.finish (word 0x23 d 0 0) (s.needCurve >>= fun c =>
        groupOrder c s.suppliedOrder >>= fun n => .ok (s.writeF d (toReg n))) := rfl

/-- With a curve ORD.GET ends as `order()` does (spec R146). -/
theorem exec_ordGet_of_cvalid {s : State} (hc : s.cvalid = true) (d : FReg) :
    exec (.ordGet d) s =
      s.finish (word 0x23 d 0 0) (groupOrder s.curve s.suppliedOrder >>= fun n =>
        .ok (s.writeF d (toReg n))) := by
  rw [exec_ordGet, State.finish_needCurve_of_cvalid hc]

/-- Settles O35: by the curve, the supplied order, and the size of the count. -/
theorem orderGetReadsOrCounts : Obligations.OrderGetReadsOrCounts := by
  intro s d
  refine ⟨assemble_eq_word _ d 0 0, fun hc => ?_, fun hc ho => ?_, fun hc ho hlt => ?_,
    fun hc ho hle => ?_⟩
  · rw [exec_ordGet]
    exact State.finish_needCurve_of_not_cvalid hc _ _
  · rw [exec_ordGet_of_cvalid hc, State.groupOrder_of_ovalid ho, except_ok_bind, toReg_toNat]
    rfl
  · rw [exec_ordGet_of_cvalid hc, State.groupOrder_of_not_ovalid ho, countOrder_of_lt hlt]
    rfl
  · rw [exec_ordGet_of_cvalid hc, State.groupOrder_of_not_ovalid ho, countOrder_of_le hle]
    rfl

end Sys2Proof.Machine
end

section
/-! PROOFS. Repeated squaring computes the reduced power (O36). -/

namespace Sys2Proof.Machine

theorem powerLoop_lt {p acc : Nat} (digits : List Bool) (z : Nat) (h : acc < p) :
    powerLoop p digits z acc < p := by
  induction digits generalizing z acc with
  | nil => exact h
  | cons d rest ih =>
    rw [powerLoop_cons]
    cases d with
    | false => exact ih _ h
    | true => exact ih _ (Nat.mod_lt _ (Nat.zero_lt_of_lt h))

/-- The accumulator takes the factor `z` just where the digit is 1. -/
theorem powerLoop_acc_modEq (p k z acc : Nat) :
    (if k % 2 == 1 then acc * z % p else acc) ≡ acc * z ^ (k % 2) [MOD p] := by
  rcases Nat.mod_two_eq_zero_or_one k with h | h
  · simp [h, Nat.ModEq.refl]
  · simp [h, Nat.mod_modEq]

/-- On the digits of `k` the loop multiplies by `z^k`: a turn trades `z^k` for `(z^2)^(k/2)` and the
factor of the digit. -/
theorem powerLoop_binaryDigits_modEq (p k z acc : Nat) :
    powerLoop p (binaryDigits k) z acc ≡ acc * z ^ k [MOD p] := by
  induction k using Nat.strong_induction_on generalizing z acc with
  | _ k ih =>
    by_cases hk : k = 0
    · simp [hk, Nat.ModEq.refl]
    · rw [binaryDigits_of_ne_zero hk, powerLoop_cons]
      have hhalf : k / 2 < k := Nat.div_lt_self (Nat.pos_of_ne_zero hk) one_lt_two
      have hsquare : (z * z % p) ^ (k / 2) ≡ (z * z) ^ (k / 2) [MOD p] :=
        (Nat.mod_modEq _ _).pow _
      calc powerLoop p (binaryDigits (k / 2)) (z * z % p)
            (if k % 2 == 1 then acc * z % p else acc)
        _ ≡ (if k % 2 == 1 then acc * z % p else acc) * (z * z % p) ^ (k / 2) [MOD p] :=
          ih _ hhalf _ _
        _ ≡ acc * z ^ (k % 2) * (z * z) ^ (k / 2) [MOD p] :=
          (powerLoop_acc_modEq p k z acc).mul hsquare
        _ = acc * z ^ (k % 2 + 2 * (k / 2)) := by rw [pow_add, pow_mul, sq, mul_assoc]
        _ = acc * z ^ k := by rw [Nat.mod_add_div]

theorem modexp_eq_residue_pow {p : Nat} (hp : 1 ≤ p) (z : Int) (e : Nat) :
    modexp z e p = residue z p ^ e % p := by
  have hlt : modexp z e p < p := powerLoop_lt _ _ (Nat.mod_lt 1 hp)
  have hpow : modexp z e p ≡ residue z p ^ e [MOD p] :=
    calc modexp z e p
      _ ≡ 1 % p * residue z p ^ e [MOD p] := powerLoop_binaryDigits_modEq p e _ _
      _ ≡ 1 * residue z p ^ e [MOD p] := (Nat.mod_modEq 1 p).mul_right _
      _ = residue z p ^ e := one_mul _
  rw [← hpow, Nat.mod_eq_of_lt hlt]

/-- Settles O36: repeated squaring raises the residue to the power `e`, and reducing the base first
does not change the reduced power. -/
theorem modexpIsTheReducedPower : Obligations.ModexpIsTheReducedPower := by
  intro z e p hp
  rw [modexp_eq_residue_pow hp, Int.natCast_emod, Int.natCast_pow, residue_cast z hp]
  exact (Int.mod_modEq z p).pow e

theorem modexp_natCast {p : Nat} (hp : 1 ≤ p) (z e : Nat) : modexp (z : Int) e p = z ^ e % p := by
  exact_mod_cast modexpIsTheReducedPower z e p hp

end Sys2Proof.Machine
end

section
/-! PROOFS. What FMUL, FINV and FSQRT write and raise (O37, O38, O40). -/

namespace Sys2Proof.Machine

open Sys2Proof.Claims

theorem one_le_toNat {v : Word256} (h : v ≠ 0) : 1 ≤ v.toNat :=
  Nat.one_le_iff_ne_zero.mpr fun h0 => h (BitVec.eq_of_toNat_eq h0)

/-- A residue modulo a register's value fits in a register (spec R166). -/
theorem toReg_mod_toNat {p : Word256} (hp : 1 ≤ p.toNat) (x : Nat) :
    (toReg (x % p.toNat)).toNat = x % p.toNat :=
  toReg_toNat_of_lt ((Nat.mod_lt x hp).trans p.isLt)

theorem inverse_of_mod_eq_zero {p z : Nat} (h : z % p = 0) :
    inverse p z = .error .notInvertible := by
  rw [inverse, residue_natCast, if_pos h]

theorem inverse_of_mod_ne_zero {p z : Nat} (hp : 1 ≤ p) (h : z % p ≠ 0) :
    inverse p z = .ok (z ^ (p - 2) % p) := by
  rw [inverse, residue_natCast, if_neg h, modexp_natCast hp]

theorem squareRoot_of_mod_four_ne {p : Nat} (h : p % 4 ≠ 3) (z : Nat) :
    squareRoot p z = .error .unsupportedModulus := if_pos h

theorem squareRoot_of_mod_four_eq {p : Nat} (h : p % 4 = 3) (z : Nat) :
    squareRoot p z = .ok (z ^ ((p + 1) / 4) % p) := by
  rw [squareRoot, if_neg (not_not.mpr h), modexp_natCast (by omega)]

theorem exec_fmul (d a b : FReg) (s : State) :
    exec (.fmul d a b) s =
      s.finish (word 0x30 d a b) (s.needCurve >>= fun c =>
        .ok (s.writeF d (toReg (modProduct (s.readF a).toNat (s.readF b).toNat c.p)))) := rfl

theorem exec_finv (d a : FReg) (s : State) :
    exec (.finv d a) s =
      s.finish (word 0x31 d a 0) (s.needCurve >>= fun c =>
        inverse c.p (s.readF a).toNat >>= fun r => .ok (s.writeF d (toReg r))) := rfl

theorem exec_fsqrt (d a : FReg) (s : State) :
    exec (.fsqrt d a) s =
      s.finish (word 0x32 d a 0) (s.needCurve >>= fun c =>
        squareRoot c.p (s.readF a).toNat >>= fun r => .ok (s.writeF d (toReg r))) := rfl

/-- With a curve FINV ends as `inverse` modulo CP does (spec R164). -/
theorem exec_finv_of_cvalid {s : State} (hc : s.cvalid = true) (d a : FReg) :
    exec (.finv d a) s =
      s.finish (word 0x31 d a 0) (inverse s.cp.toNat s.fregs[a].toNat >>= fun r =>
        .ok (s.writeF d (toReg r))) := by
  rw [exec_finv, State.finish_needCurve_of_cvalid hc]
  rfl

/-- With a curve FSQRT ends as `squareRoot` modulo CP does (spec R165). -/
theorem exec_fsqrt_of_cvalid {s : State} (hc : s.cvalid = true) (d a : FReg) :
    exec (.fsqrt d a) s =
      s.finish (word 0x32 d a 0) (squareRoot s.cp.toNat s.fregs[a].toNat >>= fun r =>
        .ok (s.writeF d (toReg r))) := by
  rw [exec_fsqrt, State.finish_needCurve_of_cvalid hc]
  rfl

/-- Settles O37, by whether there is a curve; the reduced product fits in the register. -/
theorem fieldProduct : Obligations.FieldProduct := by
  intro s d a b
  rw [exec_fmul]
  refine ⟨assemble_eq_word _ d a b, fun hc => ?_, fun hc hp => ?_⟩
  · exact State.finish_needCurve_of_not_cvalid hc _ _
  · exact ⟨_, toReg_mod_toNat (one_le_toNat hp) _, State.finish_needCurve_of_cvalid hc _ _⟩

/-- Settles O38: by the curve and the operand's residue, as `inverse` tests them. -/
theorem fieldInverse : Obligations.FieldInverse := by
  intro s d a
  refine ⟨assemble_eq_word _ d a 0, fun hc => ?_, fun hc _ hz => ?_, fun hc hp hz => ?_⟩
  · rw [exec_finv]
    exact State.finish_needCurve_of_not_cvalid hc _ _
  · rw [exec_finv_of_cvalid hc, inverse_of_mod_eq_zero hz]
    rfl
  · have hp1 := one_le_toNat hp
    rw [exec_finv_of_cvalid hc, inverse_of_mod_ne_zero hp1 hz]
    exact ⟨_, toReg_mod_toNat hp1 _, rfl⟩

/-- Settles O40: by the curve and the modulus, which `squareRoot` tests before it looks at the
operand. -/
theorem fieldSquareRoot : Obligations.FieldSquareRoot := by
  intro s d a
  refine ⟨assemble_eq_word _ d a 0, fun hc => ?_, fun hc hm => ?_, fun hc hm => ?_⟩
  · rw [exec_fsqrt]
    exact State.finish_needCurve_of_not_cvalid hc _ _
  · rw [exec_fsqrt_of_cvalid hc, squareRoot_of_mod_four_ne hm]
    rfl
  · rw [exec_fsqrt_of_cvalid hc, squareRoot_of_mod_four_eq hm]
    exact ⟨_, toReg_mod_toNat (by omega) _, rfl⟩

end Sys2Proof.Machine
end

section
/-! PROOFS. For a prime modulus Fermat's exponent inverts and the exponent `(p + 1) / 4` is a square
root up to sign (O39, O41). -/

namespace Sys2Proof.Machine

theorem ne_zero_of_prime_toNat {v : Word256} (h : v.toNat.Prime) : v ≠ 0 := by
  rintro rfl
  exact Nat.not_prime_zero h

theorem coprime_of_mod_ne_zero {p z : Nat} (hp : p.Prime) (hz : z % p ≠ 0) : p.Coprime z :=
  hp.coprime_iff_not_dvd.mpr fun h => hz (Nat.mod_eq_zero_of_dvd h)

/-- Fermat: `z * z^(p-2)` is 1 modulo a prime that does not divide `z` (spec R161). -/
theorem mul_fermatPower_mod {p z : Nat} (hp : p.Prime) (hz : z % p ≠ 0) :
    z * (z ^ (p - 2) % p) % p = 1 := by
  have htwo := hp.two_le
  have hfermat : z ^ (p - 1) ≡ 1 [MOD p] := by
    have h := Nat.ModEq.pow_totient (coprime_of_mod_ne_zero hp hz).symm
    rwa [Nat.totient_prime hp] at h
  rw [Nat.mul_mod_mod, ← pow_succ', show p - 2 + 1 = p - 1 by omega, hfermat,
    Nat.mod_eq_of_lt hp.one_lt]

/-- Below a prime `p` that does not divide `z` there is at most one inverse of `z`. -/
theorem inverse_unique {p z r r' : Nat} (hp : p.Prime) (hz : z % p ≠ 0) (hr : r < p) (hr' : r' < p)
    (h : z * r % p = 1) (h' : z * r' % p = 1) : r' = r := by
  have hmul : z * r' ≡ z * r [MOD p] := h'.trans h.symm
  exact (hmul.cancel_left_of_coprime (coprime_of_mod_ne_zero hp hz)).eq_of_lt_of_lt hr' hr

/-- Settles O39: FINV writes `z^(p-2) mod p`, which inverts the operand by Fermat's theorem. -/
theorem fieldInverseIsTheInverse : Obligations.FieldInverseIsTheInverse := by
  intro s d a hc hprime hz
  obtain ⟨-, -, -, hcompletes⟩ := fieldInverse s d a
  obtain ⟨r, hr, hexec⟩ := hcompletes hc (ne_zero_of_prime_toNat hprime) hz
  have hlt : r.toNat < s.cp.toNat := hr ▸ Nat.mod_lt _ hprime.pos
  have hinv : s.fregs[a].toNat * r.toNat % s.cp.toNat = 1 := hr ▸ mul_fermatPower_mod hprime hz
  have hpos : 1 ≤ r.toNat := by
    refine Nat.one_le_iff_ne_zero.mpr fun h0 => ?_
    simp [h0] at hinv
  exact ⟨r, hexec, hpos, hlt, hinv, fun r' hlt' hinv' =>
    inverse_unique hprime hz hlt hlt' hinv hinv'⟩

/-- A square modulo `p`, as the spec writes it, is a square of `ZMod p`. -/
theorem exists_mul_self_mod_iff_isSquare {p : Nat} (hp : p ≠ 0) (z : Nat) :
    (∃ y : Nat, y * y % p = z % p) ↔ IsSquare (z : ZMod p) := by
  constructor
  · rintro ⟨y, hy⟩
    rw [← ZMod.natCast_eq_natCast_iff', Nat.cast_mul] at hy
    exact ⟨y, hy.symm⟩
  · rintro ⟨x, hx⟩
    have : NeZero p := ⟨hp⟩
    refine ⟨x.val, ?_⟩
    rw [← ZMod.natCast_eq_natCast_iff', Nat.cast_mul, ZMod.natCast_zmod_val, hx]

/-- The square of spec R162's root is the operand times Euler's power of it. -/
theorem rootPower_mul_self {p : Nat} (hp : p % 4 = 3) (z : ZMod p) :
    z ^ ((p + 1) / 4) * z ^ ((p + 1) / 4) = z ^ (p / 2) * z := by
  rw [← pow_add, ← pow_succ]
  congr 1
  omega

theorem rootPower_mul_self_of_isSquare {p : Nat} (hprime : p.Prime) (hp : p % 4 = 3) {z : ZMod p}
    (h : IsSquare z) : z ^ ((p + 1) / 4) * z ^ ((p + 1) / 4) = z := by
  have : Fact p.Prime := ⟨hprime⟩
  rw [rootPower_mul_self hp]
  by_cases hz : z = 0
  · rw [hz, mul_zero]
  · rw [(ZMod.euler_criterion p hz).mp h, one_mul]

theorem rootPower_mul_self_of_not_isSquare {p : Nat} (hprime : p.Prime) (hp : p % 4 = 3)
    {z : ZMod p} (h : ¬ IsSquare z) : z ^ ((p + 1) / 4) * z ^ ((p + 1) / 4) = -z := by
  have : Fact p.Prime := ⟨hprime⟩
  have hz : z ≠ 0 := fun h0 => h (h0 ▸ IsSquare.zero)
  have hne_one : z ^ (p / 2) ≠ 1 := fun h1 => h ((ZMod.euler_criterion p hz).mpr h1)
  have heuler : z ^ (p / 2) = -1 := (ZMod.pow_div_two_eq_neg_one_or_one p hz).resolve_left hne_one
  rw [rootPower_mul_self hp, heuler, neg_one_mul]

/-- Settles O41: FSQRT writes `z^((p+1)/4) mod p`, whose square Euler's criterion gives in both
cases. -/
theorem squareRootSquaresBack : Obligations.SquareRootSquaresBack := by
  intro s d a hc hprime hp
  obtain ⟨-, -, -, hcompletes⟩ := fieldSquareRoot s d a
  obtain ⟨r, hr, hexec⟩ := hcompletes hc hp
  have hroot : (r.toNat : ZMod s.cp.toNat) = s.fregs[a].toNat ^ ((s.cp.toNat + 1) / 4) := by
    rw [hr, ZMod.natCast_mod, Nat.cast_pow]
  rw [exists_mul_self_mod_iff_isSquare hprime.ne_zero]
  refine ⟨r, hexec, fun hsquare => ?_, fun hnonsquare => ?_⟩
  · rw [← ZMod.natCast_eq_natCast_iff', Nat.cast_mul, hroot,
      rootPower_mul_self_of_isSquare hprime hp hsquare]
  · rw [← Nat.dvd_iff_mod_eq_zero, ← ZMod.natCast_eq_zero_iff, Nat.cast_add, Nat.cast_mul, hroot,
      rootPower_mul_self_of_not_isSquare hprime hp hnonsquare, neg_add_cancel]

end Sys2Proof.Machine
end

section
/-! PROOFS. The group law in closed form, and what HASPT, PNEG, PDBL and PADD write and raise (O43 to
O46). -/

namespace Sys2Proof.Machine

open Sys2Proof.Claims

theorem isZero_eq_false_iff (Q : Point) : isZero Q = false ↔ Q ≠ identityPoint := by
  rw [← Bool.not_eq_true, Ne, isZero_eq_true_iff]

/-- A point is the identity when both its stored integers are 0 (spec R9, R24). -/
theorem eq_identityPoint_iff (Q : Point) : Q = identityPoint ↔ intX Q = 0 ∧ intY Q = 0 := by
  rw [← isZero_eq_true_iff, isZero_eq_decide_toNat, decide_eq_true_iff, intX, intY,
    Int.natCast_eq_zero, Int.natCast_eq_zero]

theorem intX_inj {Q1 Q2 : Point} : intX Q1 = intX Q2 ↔ Q1.x = Q2.x := by
  rw [intX, intX, Int.natCast_inj, BitVec.toNat_inj]

theorem intY_inj {Q1 Q2 : Point} : intY Q1 = intY Q2 ↔ Q1.y = Q2.y := by
  rw [intY, intY, Int.natCast_inj, BitVec.toNat_inj]

/-- `hasPoint` in the words of spec R180: the identity, or the congruence on the stored integers. -/
theorem hasPoint_eq_true_iff {c : Curve} (hp : 0 < c.p) (Q : Point) :
    hasPoint c Q = true ↔ (Q.x = 0 ∧ Q.y = 0) ∨
      (c.p : Int) ∣ intY Q ^ 2 - (intX Q ^ 3 + c.a * intX Q + c.b) := by
  have hzero : isZero Q = true ↔ Q.x = 0 ∧ Q.y = 0 := by
    rw [isZero, Bool.and_eq_true, beq_iff_eq, beq_iff_eq]
  have hcurve : onCurve c (intX Q) (intY Q) = true ↔
      (c.p : Int) ∣ intY Q ^ 2 - (intX Q ^ 3 + c.a * intX Q + c.b) := by
    rw [onCurve_eq_true_iff hp, ← Int.dvd_iff_emod_eq_zero, sq, pow_succ, sq]
  by_cases h : isZero Q = true
  · simp [hasPoint, h, hzero.mp h]
  · rw [hasPoint, if_neg h, hcurve, ← hzero, or_iff_right h]

theorem residue_neg_of_mod_eq_zero {p y : Nat} (hp : 0 < p) (h : y % p = 0) :
    residue (-(y : Int)) p = 0 := by
  rw [residue_eq_zero_iff _ hp, dvd_neg, Int.natCast_dvd_natCast]
  exact Nat.dvd_of_mod_eq_zero h

theorem residue_neg_of_mod_ne_zero {p y : Nat} (hp : 0 < p) (h : y % p ≠ 0) :
    residue (-(y : Int)) p = p - y % p := by
  have hlt : y % p < p := Nat.mod_lt y hp
  have hsplit : -(y : Int) = (p - y % p : Nat) + p * (-(y / p : Nat) - 1) := by
    have hdiv : ((y % p : Nat) : Int) + p * (y / p : Nat) = y := mod_cast Nat.mod_add_div y p
    rw [Nat.cast_sub hlt.le]
    linear_combination hdiv
  rw [hsplit, residue, Int.add_mul_emod_self_left, ← Int.natCast_emod, Int.toNat_natCast,
    Nat.mod_eq_of_lt (by omega)]

theorem toReg_residue {p : Nat} (hp : 0 < p) (z : Int) :
    toReg (residue z p) = BitVec.ofInt 256 (z % p) := by
  rw [toReg, ← residue_cast z hp, BitVec.ofInt_natCast]

/-- The model's third and fourth line of spec R182 and R183 are the spec's. -/
theorem mkPoint_residue {p : Nat} (hp : 0 < p) (lam x1 y1 x2 : Int) :
    mkPoint (residue (lam * lam - x1 - x2) p)
      (residue (lam * (x1 - residue (lam * lam - x1 - x2) p) - y1) p) =
      thirdPoint p lam x1 y1 x2 := by
  rw [mkPoint, toReg_residue hp, toReg_residue hp, residue_cast _ hp, thirdPoint]

theorem inverse_of_dvd {p : Nat} (hp : 0 < p) {z : Int} (h : (p : Int) ∣ z) :
    inverse p z = .error .notInvertible := if_pos ((residue_eq_zero_iff z hp).mpr h)

theorem inverse_of_not_dvd {p : Nat} (hp : 0 < p) {z : Int} (h : ¬ (p : Int) ∣ z) :
    inverse p z = .ok (modexp z (p - 2) p) := if_neg (mt (residue_eq_zero_iff z hp).mp h)

/-- The slope of the tangent at `Q`, by Fermat's inverse (spec R183). -/
def tangentSlope (c : Curve) (Q : Point) : Int :=
  (3 * intX Q * intX Q + c.a) * ((2 * intY Q) ^ (c.p - 2) % c.p) % c.p

/-- The slope of the chord through `Q1` and `Q2`, by Fermat's inverse (spec R182). -/
def chordSlope (c : Curve) (Q1 Q2 : Point) : Int :=
  (intY Q1 - intY Q2) * ((intX Q1 - intX Q2) ^ (c.p - 2) % c.p) % c.p

/-- The vertical tangent of spec R183. -/
theorem double_of_dvd {c : Curve} (hp : 0 < c.p) {Q : Point} (hQ : Q ≠ identityPoint)
    (h : (c.p : Int) ∣ 2 * intY Q) : double c Q = .error .notInvertible := by
  simp [double, (isZero_eq_false_iff Q).mpr hQ, inverse_of_dvd hp h]

/-- The tangent formula of spec R183. -/
theorem double_of_not_dvd {c : Curve} (hp : 0 < c.p) {Q : Point} (hQ : Q ≠ identityPoint)
    (h : ¬ (c.p : Int) ∣ 2 * intY Q) :
    double c Q = .ok (thirdPoint c.p (tangentSlope c Q) (intX Q) (intY Q) (intX Q)) := by
  have hslope : tangentSlope c Q = residue ((3 * intX Q * intX Q + c.a) *
      (modexp (2 * intY Q) (c.p - 2) c.p : Nat)) c.p := by
    rw [residue_cast _ hp, modexpIsTheReducedPower _ _ _ hp, tangentSlope]
  have htwice : ∀ z : Int, z - 2 * intX Q = z - intX Q - intX Q := fun z => by ring
  simp [double, (isZero_eq_false_iff Q).mpr hQ, inverse_of_not_dvd hp h, ← mkPoint_residue hp,
    hslope, htwice]

/-- Case 5 of spec R182 where the abscissae are congruent. -/
theorem add_of_dvd {c : Curve} (hp : 0 < c.p) {Q1 Q2 : Point} (h1 : Q1 ≠ identityPoint)
    (h2 : Q2 ≠ identityPoint) (hx : Q1.x ≠ Q2.x) (h : (c.p : Int) ∣ intX Q1 - intX Q2) :
    add c Q1 Q2 = .error .notInvertible := by
  simp [add, (isZero_eq_false_iff _).mpr h1, (isZero_eq_false_iff _).mpr h2, hx,
    inverse_of_dvd hp h]

/-- The chord formula of spec R182, case 5. -/
theorem add_of_not_dvd {c : Curve} (hp : 0 < c.p) {Q1 Q2 : Point} (h1 : Q1 ≠ identityPoint)
    (h2 : Q2 ≠ identityPoint) (hx : Q1.x ≠ Q2.x) (h : ¬ (c.p : Int) ∣ intX Q1 - intX Q2) :
    add c Q1 Q2 = .ok (thirdPoint c.p (chordSlope c Q1 Q2) (intX Q1) (intY Q1) (intX Q2)) := by
  have hslope : chordSlope c Q1 Q2 = residue ((intY Q1 - intY Q2) *
      (modexp (intX Q1 - intX Q2) (c.p - 2) c.p : Nat)) c.p := by
    rw [residue_cast _ hp, modexpIsTheReducedPower _ _ _ hp, chordSlope]
  simp [add, (isZero_eq_false_iff _).mpr h1, (isZero_eq_false_iff _).mpr h2, hx,
    inverse_of_not_dvd hp h, ← mkPoint_residue hp, hslope]

theorem exec_haspt (a : PReg) (s : State) :
    exec (.haspt a) s =
      s.finish (word 0x28 0 a 0) (s.needCurve >>= fun c => .ok (s.setT (hasPoint c (s.readP a)))) :=
  rfl

theorem exec_pneg (d a : PReg) (s : State) :
    exec (.pneg d a) s =
      s.finish (word 0x29 d a 0) (s.needCurve >>= fun c =>
        .ok (s.writeP d (negatePoint c (s.readP a)))) := rfl

theorem exec_padd (d a b : PReg) (s : State) :
    exec (.padd d a b) s =
      s.finish (word 0x2A d a b) (s.needCurve >>= fun c =>
        add c (s.readP a) (s.readP b) >>= fun R => .ok (s.writeP d R)) := rfl

theorem exec_pdbl (d a : PReg) (s : State) :
    exec (.pdbl d a) s =
      s.finish (word 0x2B d a 0) (s.needCurve >>= fun c =>
        double c (s.readP a) >>= fun R => .ok (s.writeP d R)) := rfl

/-- A command that computes a point writes it where it completes (spec R66). -/
theorem State.finish_writeP_of_ok {s : State} {r : Except FaultCode Point} {R : Point}
    (h : r = .ok R) (w : Word32) (d : PReg) :
    s.finish w (r >>= fun R => .ok (s.writeP d R)) =
      .next { s with pregs := s.pregs.set d R, done := true, mode := .idle } := by
  rw [h]
  rfl

/-- A command that computes a point writes none where the computation raises (spec R233). -/
theorem State.finish_writeP_of_error {s : State} {r : Except FaultCode Point} {e : FaultCode}
    (h : r = .error e) (w : Word32) (d : PReg) :
    s.finish w (r >>= fun R => .ok (s.writeP d R)) = .next (faulted s e.number w) := by
  rw [h]
  rfl

/-- With a curve PADD ends as `add` does (spec R187). -/
theorem exec_padd_of_cvalid {s : State} (hc : s.cvalid = true) (d a b : PReg) :
    exec (.padd d a b) s =
      s.finish (word 0x2A d a b) (add s.curve s.pregs[a] s.pregs[b] >>= fun R =>
        .ok (s.writeP d R)) := by
  rw [exec_padd, State.finish_needCurve_of_cvalid hc]
  rfl

/-- With a curve PDBL ends as `double` does (spec R188). -/
theorem exec_pdbl_of_cvalid {s : State} (hc : s.cvalid = true) (d a : PReg) :
    exec (.pdbl d a) s =
      s.finish (word 0x2B d a 0) (double s.curve s.pregs[a] >>= fun R => .ok (s.writeP d R)) := by
  rw [exec_pdbl, State.finish_needCurve_of_cvalid hc]
  rfl

theorem State.curve_a_eq_toInt (s : State) : s.curve.a = s.ca.toInt := sext32_eq_toInt s.ca

theorem State.curve_b_eq_toInt (s : State) : s.curve.b = s.cb.toInt := sext32_eq_toInt s.cb

/-- Settles O43: by whether there is a curve; `hasPoint` is the congruence of spec R180. -/
theorem membershipTest : Obligations.MembershipTest := by
  intro s a
  rw [exec_haspt]
  refine ⟨assemble_eq_word _ 0 a 0, fun hc => ?_, fun hc hp => ?_⟩
  · exact State.finish_needCurve_of_not_cvalid hc _ _
  · refine ⟨_, State.finish_needCurve_of_cvalid hc _ _, ?_⟩
    rw [State.setT_t, hasPoint_eq_true_iff (c := s.curve) (one_le_toNat hp), s.curve_a_eq_toInt,
      s.curve_b_eq_toInt]
    rfl

/-- Settles O44: by the curve and the residue of `y`. -/
theorem pointNegation : Obligations.PointNegation := by
  intro s d a
  rw [exec_pneg]
  refine ⟨assemble_eq_word _ d a 0, fun hc => ?_, fun hc hp => ?_⟩
  · exact State.finish_needCurve_of_not_cvalid hc _ _
  · have hp1 := one_le_toNat hp
    refine ⟨_, State.finish_needCurve_of_cvalid hc _ _, ?_⟩
    have hy : (toReg (residue (-intY s.pregs[a]) s.cp.toNat)).toNat =
        residue (-intY s.pregs[a]) s.cp.toNat :=
      toReg_toNat_of_lt ((residue_lt _ hp1).trans s.cp.isLt)
    exact ⟨fun h => hy.trans (residue_neg_of_mod_eq_zero hp1 h),
      fun h => hy.trans (residue_neg_of_mod_ne_zero hp1 h)⟩

/-- The tangent formula with the coefficient as the register holds it. -/
theorem double_curve_of_not_dvd {s : State} (hp : s.cp ≠ 0) {Q : Point} (hQ : Q ≠ identityPoint)
    (h : ¬ (s.cp.toNat : Int) ∣ 2 * intY Q) :
    double s.curve Q = .ok (thirdPoint s.cp.toNat ((3 * intX Q * intX Q + s.ca.toInt) *
      ((2 * intY Q) ^ (s.cp.toNat - 2) % s.cp.toNat) % s.cp.toNat) (intX Q) (intY Q) (intX Q)) := by
  rw [double_of_not_dvd (c := s.curve) (one_le_toNat hp) hQ h, tangentSlope, s.curve_a_eq_toInt]
  rfl

/-- Settles O45: by the curve and the three cases of `double`. -/
theorem pointDoubling : Obligations.PointDoubling := by
  intro s d a
  refine ⟨assemble_eq_word _ d a 0, fun hc => ?_, fun hc hp => ?_⟩
  · rw [exec_pdbl]
    exact State.finish_needCurve_of_not_cvalid hc _ _
  · rw [exec_pdbl_of_cvalid hc]
    have hidentity := eq_identityPoint_iff s.pregs[a]
    refine ⟨fun h => ?_, fun h hy => ?_, fun h hy => ?_⟩
    · exact State.finish_writeP_of_ok (congrArg (double s.curve) (hidentity.mpr h)) _ d
    · exact State.finish_writeP_of_error
        (double_of_dvd (c := s.curve) (one_le_toNat hp) (mt hidentity.mp h) hy) _ d
    · exact State.finish_writeP_of_ok (double_curve_of_not_dvd hp (mt hidentity.mp h) hy) _ d

/-- Settles O46: by the curve and the five cases of `add`, the third as `double` does it. -/
theorem pointAddition : Obligations.PointAddition := by
  intro s d a b
  refine ⟨assemble_eq_word _ d a b, fun hc => ?_, fun hc hp => ?_⟩
  · rw [exec_padd]
    exact State.finish_needCurve_of_not_cvalid hc _ _
  · rw [exec_padd_of_cvalid hc]
    have hp1 := one_le_toNat hp
    generalize s.pregs[a] = Q1, s.pregs[b] = Q2
    refine ⟨?right, ?left, ?vertical, ?tangent, ?opposite, ?congruent, ?chord⟩
    case right =>
      rintro rfl
      exact State.finish_writeP_of_ok (add_identity_right s.curve Q1) _ d
    case left =>
      rintro - rfl
      exact State.finish_writeP_of_ok (add_identity_left s.curve Q2) _ d
    case vertical =>
      rintro h rfl hy
      refine State.finish_writeP_of_error (e := .notInvertible) ?_ _ d
      rw [add_self _ ((isZero_eq_false_iff _).mpr h), double_of_dvd (c := s.curve) hp1 h hy]
    case tangent =>
      rintro h rfl hy
      refine State.finish_writeP_of_ok ?_ _ d
      rw [add_self _ ((isZero_eq_false_iff _).mpr h)]
      exact double_curve_of_not_dvd hp h hy
    case opposite =>
      intro h2 h1 hx hy
      exact State.finish_writeP_of_ok (add_of_x_eq s.curve ((isZero_eq_false_iff _).mpr h1)
        ((isZero_eq_false_iff _).mpr h2) (intX_inj.mp hx) (mt intY_inj.mpr hy)) _ d
    case congruent =>
      intro h2 h1 hx h
      exact State.finish_writeP_of_error
        (add_of_dvd (c := s.curve) hp1 h1 h2 (mt intX_inj.mpr hx) h) _ d
    case chord =>
      intro h2 h1 hx h
      exact State.finish_writeP_of_ok
        (add_of_not_dvd (c := s.curve) hp1 h1 h2 (mt intX_inj.mpr hx) h) _ d

end Sys2Proof.Machine
end

section
/-! PROOFS. The model's loop over the scalar's digits is the pseudocode's double-and-add loop, and what
SMUL writes and raises (O47, O48). -/

namespace Sys2Proof.Machine

open Sys2Proof.Claims

theorem scalarLoop_binaryDigits_zero (c : Curve) (acc power : Point) :
    scalarLoop c (binaryDigits 0) acc power = .ok acc := rfl

/-- A turn on an odd scalar: add, double, halve (spec R184). -/
theorem scalarLoop_binaryDigits_of_odd (c : Curve) {k : Nat} (hk : k % 2 = 1) (acc power : Point) :
    scalarLoop c (binaryDigits k) acc power =
      (add c acc power >>= fun acc' => double c power >>= fun power' =>
        scalarLoop c (binaryDigits (k / 2)) acc' power') := by
  rw [binaryDigits_of_ne_zero (k := k) (by omega), hk]
  rfl

/-- A turn on an even scalar: double, halve (spec R184). -/
theorem scalarLoop_binaryDigits_of_even (c : Curve) {k : Nat} (hpos : 0 < k) (hk : k % 2 = 0)
    (acc power : Point) :
    scalarLoop c (binaryDigits k) acc power =
      (double c power >>= fun power' => scalarLoop c (binaryDigits (k / 2)) acc power') := by
  rw [binaryDigits_of_ne_zero (k := k) (by omega), hk]
  rfl

/-- However the pseudocode's loop ends, the model's loop ends in the same way. -/
theorem scalarLoop_eq_of_scalarWhile {c : Curve} {acc power : Point} {k : Nat}
    {r : Except FaultCode Point} (h : ScalarWhile c acc power k r) :
    scalarLoop c (binaryDigits k) acc power = r := by
  induction h with
  | finished acc power => exact scalarLoop_binaryDigits_zero c acc power
  | addRaises acc power k e odd raises =>
    rw [scalarLoop_binaryDigits_of_odd c odd, raises, except_error_bind]
  | oddDoubleRaises acc power acc' k e odd adds raises =>
    rw [scalarLoop_binaryDigits_of_odd c odd, adds, except_ok_bind, raises, except_error_bind]
  | oddDigit acc power acc' power' k r odd adds doubles rest ih =>
    rw [scalarLoop_binaryDigits_of_odd c odd, adds, except_ok_bind, doubles, except_ok_bind, ih]
  | evenDoubleRaises acc power k e pos even raises =>
    rw [scalarLoop_binaryDigits_of_even c pos even, raises, except_error_bind]
  | evenDigit acc power power' k r pos even doubles rest ih =>
    rw [scalarLoop_binaryDigits_of_even c pos even, doubles, except_ok_bind, ih]

/-- The pseudocode's loop ends from every start, as the scalar is halved in each turn. -/
theorem exists_scalarWhile (c : Curve) (acc power : Point) (k : Nat) :
    ∃ r, ScalarWhile c acc power k r := by
  induction k using Nat.strong_induction_on generalizing acc power with
  | _ k ih =>
    rcases Nat.eq_zero_or_pos k with rfl | pos
    · exact ⟨_, .finished acc power⟩
    have half : k / 2 < k := Nat.div_lt_self pos one_lt_two
    rcases Nat.mod_two_eq_zero_or_one k with even | odd
    · cases doubles : double c power with
      | error e => exact ⟨_, .evenDoubleRaises acc power k e pos even doubles⟩
      | ok power' =>
        obtain ⟨r, rest⟩ := ih _ half acc power'
        exact ⟨r, .evenDigit acc power power' k r pos even doubles rest⟩
    · cases adds : add c acc power with
      | error e => exact ⟨_, .addRaises acc power k e odd adds⟩
      | ok acc' =>
        cases doubles : double c power with
        | error e => exact ⟨_, .oddDoubleRaises acc power acc' k e odd adds doubles⟩
        | ok power' =>
          obtain ⟨r, rest⟩ := ih _ half acc' power'
          exact ⟨r, .oddDigit acc power acc' power' k r odd adds doubles rest⟩

theorem scalarMultiply_eq_of_scalarWhile {c : Curve} {Q : Point} {n : Nat} (hn : n ≠ 0)
    {r : Except FaultCode Point} (h : ScalarWhile c identityPoint Q n r) :
    scalarMultiply c Q n = r :=
  (scalarMultiply_of_ne_zero c Q hn).trans (scalarLoop_eq_of_scalarWhile h)

theorem scalarMultiply_identity (c : Curve) {n : Nat} (hn : n ≠ 0) :
    scalarMultiply c identityPoint n = .ok identityPoint :=
  (scalarMultiply_of_ne_zero c identityPoint hn).trans (scalarLoop_identity c _)

theorem exec_smul (d a : PReg) (b : FReg) (s : State) :
    exec (.smul d a b) s =
      s.finish (word 0x2C d a b) (s.needCurve >>= fun c =>
        scalarMultiply c (s.readP a) (s.readF b).toNat >>= fun R => .ok (s.writeP d R)) := rfl

/-- With a curve SMUL ends as `scalarMultiply` does (spec R189). -/
theorem exec_smul_of_cvalid {s : State} (hc : s.cvalid = true) (d a : PReg) (b : FReg) :
    exec (.smul d a b) s =
      s.finish (word 0x2C d a b) (scalarMultiply s.curve s.pregs[a] s.fregs[b].toNat >>= fun R =>
        .ok (s.writeP d R)) := by
  rw [exec_smul, State.finish_needCurve_of_cvalid hc]
  rfl

/-- Settles O47: by the curve and the scalar; `scalarLoop` ends as the pseudocode's loop does, which
always ends. -/
theorem scalarMultiplication : Obligations.ScalarMultiplication := by
  intro s d a b
  refine ⟨assemble_eq_word _ d a b, fun hc => ?_, fun hc hn => ?_, fun hc hn => ?_⟩
  · rw [exec_smul]
    exact State.finish_needCurve_of_not_cvalid hc _ _
  · rw [exec_smul_of_cvalid hc, hn]
    exact State.finish_writeP_of_error (scalarMultiply_zero s.curve s.pregs[a]) _ d
  · have hn1 : s.fregs[b].toNat ≠ 0 := Nat.one_le_iff_ne_zero.mp (one_le_toNat hn)
    rw [exec_smul_of_cvalid hc]
    exact ⟨exists_scalarWhile _ _ _ _,
      fun R h => State.finish_writeP_of_ok (scalarMultiply_eq_of_scalarWhile hn1 h) _ d,
      fun e h => State.finish_writeP_of_error (scalarMultiply_eq_of_scalarWhile hn1 h) _ d⟩

/-- Settles O48: the loop never faults on the identity. -/
theorem scalarMultipleOfIdentity : Obligations.ScalarMultipleOfIdentity := by
  intro s d a b hc hn ha
  have hn1 : s.fregs[b].toNat ≠ 0 := Nat.one_le_iff_ne_zero.mp (one_le_toNat hn)
  rw [exec_smul_of_cvalid hc, ha]
  exact State.finish_writeP_of_ok (scalarMultiply_identity s.curve hn1) _ d

end Sys2Proof.Machine
end

section
/-! PROOFS. On a supported curve the valid points are the points of an elliptic curve over `ZMod p`, each
held in a register in one way (for O49 to O52). -/

namespace Sys2Proof.Machine

open Sys2Proof.Claims WeierstrassCurve.Affine

/-- The curve over the field of `p` elements. -/
def fieldCurve (c : Curve) : WeierstrassCurve.Affine (ZMod c.p) where
  a₁ := 0
  a₂ := 0
  a₃ := 0
  a₄ := c.a
  a₆ := c.b

/-- The register content that stands for a point of the curve: canonical coordinates, and the sentinel
for the identity (spec R24, R190). -/
def stored {c : Curve} : (fieldCurve c).Point → Point
  | .zero => identityPoint
  | .some x y _ => mkPoint x.val y.val

section
variable {c : Curve}

@[simp] theorem stored_zero : stored (0 : (fieldCurve c).Point) = identityPoint := rfl

@[simp] theorem stored_some {x y : ZMod c.p} (h : (fieldCurve c).Nonsingular x y) :
    stored (.some x y h) = mkPoint x.val y.val := rfl

theorem fieldCurve_equation_iff (x y : ZMod c.p) :
    (fieldCurve c).Equation x y ↔ y ^ 2 = x ^ 3 + c.a * x + c.b := by
  simp [equation_iff, fieldCurve]

theorem fieldCurve_negY (x y : ZMod c.p) : (fieldCurve c).negY x y = -y := by
  simp [fieldCurve]

theorem fieldCurve_addX (x₁ x₂ lam : ZMod c.p) :
    (fieldCurve c).addX x₁ x₂ lam = lam * lam - x₁ - x₂ := by
  simp [fieldCurve, sq]

theorem fieldCurve_addY (x₁ x₂ y₁ lam : ZMod c.p) :
    (fieldCurve c).addY x₁ x₂ y₁ lam = lam * (x₁ - (lam * lam - x₁ - x₂)) - y₁ := by
  rw [addY, fieldCurve_negY, negAddY, fieldCurve_addX]
  ring

theorem fieldCurve_discriminant :
    (fieldCurve c).Δ = -16 * ((4 * c.a ^ 3 + 27 * c.b ^ 2 : Int) : ZMod c.p) := by
  simp only [WeierstrassCurve.Δ, WeierstrassCurve.b₂, WeierstrassCurve.b₄, WeierstrassCurve.b₆,
    WeierstrassCurve.b₈, fieldCurve]
  push_cast
  ring

variable [Fact c.p.Prime]

theorem two_ne_zero_of_supported (hc : Supported c) : (2 : ZMod c.p) ≠ 0 := by
  intro h
  have hdvd : c.p ∣ 2 := (ZMod.natCast_eq_zero_iff 2 c.p).mp (mod_cast h)
  exact absurd (Nat.le_of_dvd two_pos hdvd) (by have := hc.large; omega)

theorem fieldCurve_nonsingular_iff (hc : Supported c) (x y : ZMod c.p) :
    (fieldCurve c).Nonsingular x y ↔ y ^ 2 = x ^ 3 + c.a * x + c.b := by
  have h16 : (-16 : ZMod c.p) ≠ 0 := by
    rw [show (-16 : ZMod c.p) = -2 ^ 4 by norm_num]
    exact neg_ne_zero.mpr (pow_ne_zero 4 (two_ne_zero_of_supported hc))
  have hdisc : ((4 * c.a ^ 3 + 27 * c.b ^ 2 : Int) : ZMod c.p) ≠ 0 :=
    mt (ZMod.intCast_zmod_eq_zero_iff_dvd _ _).mp hc.nonsingular
  rw [← equation_iff_nonsingular_of_Δ_ne_zero (fieldCurve_discriminant ▸ mul_ne_zero h16 hdisc),
    fieldCurve_equation_iff]

theorem toReg_val_toNat (hc : Supported c) (x : ZMod c.p) : (toReg x.val).toNat = x.val :=
  toReg_toNat_of_lt ((ZMod.val_lt x).trans hc.fits)

theorem toReg_val_inj (hc : Supported c) {x y : ZMod c.p} : toReg x.val = toReg y.val ↔ x = y := by
  rw [← BitVec.toNat_inj, toReg_val_toNat hc, toReg_val_toNat hc,
    (ZMod.val_injective c.p).eq_iff]

theorem mkPoint_val_inj (hc : Supported c) {x₁ y₁ x₂ y₂ : ZMod c.p} :
    mkPoint x₁.val y₁.val = mkPoint x₂.val y₂.val ↔ x₁ = x₂ ∧ y₁ = y₂ := by
  rw [mkPoint, mkPoint, Point.mk.injEq, toReg_val_inj hc, toReg_val_inj hc]

/-- An integer reduced modulo `p` is stored as its value in the field. -/
theorem ofInt_emod_eq (z : Int) : BitVec.ofInt 256 (z % c.p) = toReg (z : ZMod c.p).val := by
  rw [← ZMod.val_intCast, BitVec.ofInt_natCast, toReg]

/-- The spec's third point has the field's coordinates. -/
theorem thirdPoint_eq (lam x1 y1 x2 : Int) :
    thirdPoint c.p lam x1 y1 x2 = mkPoint ((fieldCurve c).addX x1 x2 lam).val
      ((fieldCurve c).addY x1 x2 y1 lam).val := by
  rw [fieldCurve_addX, fieldCurve_addY, thirdPoint, mkPoint, ofInt_emod_eq, ofInt_emod_eq]
  simp

/-- The sentinel stands for no affine point: `b mod p ≠ 0` (spec R190). -/
theorem stored_some_ne_identity (hc : Supported c) {x y : ZMod c.p}
    (h : (fieldCurve c).Nonsingular x y) : stored (.some x y h) ≠ identityPoint := by
  intro h0
  have hzero : mkPoint x.val y.val = mkPoint (0 : ZMod c.p).val (0 : ZMod c.p).val := by
    rw [← stored_some h, h0, ZMod.val_zero]
    rfl
  obtain ⟨rfl, rfl⟩ := (mkPoint_val_inj hc).mp hzero
  have hb : (c.b : ZMod c.p) = 0 := by
    simpa using ((fieldCurve_nonsingular_iff hc 0 0).mp h).symm
  exact hc.bNonzero ((ZMod.intCast_zmod_eq_zero_iff_dvd _ _).mp hb)

theorem intX_mkPoint_val (hc : Supported c) (x y : ZMod c.p) :
    intX (mkPoint x.val y.val) = (x.val : Int) := congrArg Nat.cast (toReg_val_toNat hc x)

theorem intY_mkPoint_val (hc : Supported c) (x y : ZMod c.p) :
    intY (mkPoint x.val y.val) = (y.val : Int) := congrArg Nat.cast (toReg_val_toNat hc y)

theorem intCast_val (x : ZMod c.p) : (((x.val : Nat) : Int) : ZMod c.p) = x := by
  rw [Int.cast_natCast, ZMod.natCast_zmod_val]

/-- The congruence of spec R180 is the equation over the field. -/
theorem dvd_sub_iff_equation (x y : Int) :
    (c.p : Int) ∣ y ^ 2 - (x ^ 3 + c.a * x + c.b) ↔
      (y : ZMod c.p) ^ 2 = (x : ZMod c.p) ^ 3 + c.a * x + c.b := by
  rw [← ZMod.intCast_zmod_eq_zero_iff_dvd, Int.cast_sub, sub_eq_zero]
  push_cast
  rfl

theorem valid_stored (hc : Supported c) (P : (fieldCurve c).Point) : Valid c (stored P) := by
  cases P with
  | zero => exact .inl ⟨rfl, rfl⟩
  | some x y h =>
    have hlt : ∀ z : ZMod c.p, (toReg z.val).toNat < c.p := fun z =>
      (toReg_val_toNat hc z).trans_lt (ZMod.val_lt z)
    refine .inr ⟨hlt x, hlt y, (hasPoint_eq_true_iff hc.prime.pos _).mpr (.inr ?_)⟩
    rw [dvd_sub_iff_equation, stored_some, intX_mkPoint_val hc, intY_mkPoint_val hc, intCast_val,
      intCast_val]
    exact (fieldCurve_nonsingular_iff hc x y).mp h

theorem exists_stored_of_valid (hc : Supported c) {Q : Point} (hQ : Valid c Q) :
    ∃ P : (fieldCurve c).Point, stored P = Q := by
  have hidentity : Q.x = 0 ∧ Q.y = 0 → ∃ P : (fieldCurve c).Point, stored P = Q := by
    rintro ⟨hx, hy⟩
    exact ⟨0, (congrArg₂ Point.mk hx hy).symm⟩
  rcases hQ with h | ⟨hx, hy, h⟩
  · exact hidentity h
  rcases (hasPoint_eq_true_iff hc.prime.pos Q).mp h with h | h
  · exact hidentity h
  have hpoint := (fieldCurve_nonsingular_iff hc _ _).mpr ((dvd_sub_iff_equation _ _).mp h)
  refine ⟨.some _ _ hpoint, ?_⟩
  rw [stored_some, intX, intY, Int.cast_natCast, Int.cast_natCast, ZMod.val_cast_of_lt hx,
    ZMod.val_cast_of_lt hy, mkPoint, toReg_toNat, toReg_toNat]

theorem negatePoint_stored (hc : Supported c) (P : (fieldCurve c).Point) :
    negatePoint c (stored P) = stored (-P) := by
  cases P with
  | zero =>
    rw [negatePoint, toReg_residue hc.prime.pos]
    rfl
  | some x y h =>
    rw [Point.neg_some, stored_some, stored_some, fieldCurve_negY, negatePoint,
      intY_mkPoint_val hc, toReg_residue hc.prime.pos, ofInt_emod_eq, Int.cast_neg, intCast_val]
    rfl

end

end Sys2Proof.Machine
end

section
/-! PROOFS. On a supported curve the model's group law is that of the elliptic curve over `ZMod p`, but
raises where it doubles a point of order 2 (O49 to O52). -/

namespace Sys2Proof.Machine

open Sys2Proof.Claims WeierstrassCurve.Affine

section
variable {c : Curve} [Fact c.p.Prime]

/-- Fermat's inverse is the field's (spec R161). -/
theorem intCast_fermatPower {z : Int} (hz : (z : ZMod c.p) ≠ 0) :
    ((z ^ (c.p - 2) % c.p : Int) : ZMod c.p) = (z : ZMod c.p)⁻¹ := by
  have htwo := (Fact.out : c.p.Prime).two_le
  rw [ZMod.intCast_mod, Int.cast_pow]
  refine eq_inv_of_mul_eq_one_left ?_
  rw [← pow_succ, show c.p - 2 + 1 = c.p - 1 by omega, ZMod.pow_card_sub_one_eq_one hz]

/-- A tangent is vertical where the point is its own negative (spec R183). -/
theorem eq_negY_iff (x y : ZMod c.p) : y = (fieldCurve c).negY x y ↔ 2 * y = 0 := by
  rw [fieldCurve_negY, eq_neg_iff_add_eq_zero, two_mul]

/-- The points of `y = 0` are those that are their own negative (spec R190). -/
theorem stored_y_eq_zero_iff (hc : Supported c) (P : (fieldCurve c).Point) :
    (stored P).y = 0 ↔ P = -P := by
  cases P with
  | zero => exact iff_of_true rfl Point.neg_zero.symm
  | some x y h =>
    have hy : (stored (.some x y h)).y = 0 ↔ y = 0 := by
      rw [← toReg_val_inj hc, ZMod.val_zero]
      rfl
    rw [hy, Point.neg_some, Point.some.injEq, eq_negY_iff, mul_eq_zero,
      or_iff_right (two_ne_zero_of_supported hc), and_iff_right rfl]

theorem tangentSlope_eq (hc : Supported c) {x y : ZMod c.p} (hy : 2 * y ≠ 0) :
    (tangentSlope c (mkPoint x.val y.val) : ZMod c.p) = (fieldCurve c).slope x x y y := by
  have hdouble : ((2 * (y.val : Int) : Int) : ZMod c.p) = 2 * y := by
    rw [Int.cast_mul, intCast_val, Int.cast_ofNat]
  rw [tangentSlope, intX_mkPoint_val hc, intY_mkPoint_val hc, ZMod.intCast_mod, Int.cast_mul,
    intCast_fermatPower (hdouble ▸ hy), hdouble, slope_of_Y_ne rfl (mt (eq_negY_iff x y).mp hy),
    fieldCurve_negY, div_eq_mul_inv, sub_neg_eq_add, ← two_mul]
  congr 1
  simp only [fieldCurve, Int.cast_add, Int.cast_mul, intCast_val, Int.cast_ofNat]
  ring

theorem chordSlope_eq (hc : Supported c) {x₁ x₂ : ZMod c.p} (y₁ y₂ : ZMod c.p) (hx : x₁ ≠ x₂) :
    (chordSlope c (mkPoint x₁.val y₁.val) (mkPoint x₂.val y₂.val) : ZMod c.p) =
      (fieldCurve c).slope x₁ x₂ y₁ y₂ := by
  have hdiff : ∀ z₁ z₂ : ZMod c.p, ((z₁.val - z₂.val : Int) : ZMod c.p) = z₁ - z₂ := fun z₁ z₂ => by
    rw [Int.cast_sub, intCast_val, intCast_val]
  rw [chordSlope, intX_mkPoint_val hc, intX_mkPoint_val hc, intY_mkPoint_val hc,
    intY_mkPoint_val hc, ZMod.intCast_mod, Int.cast_mul,
    intCast_fermatPower (hdiff x₁ x₂ ▸ sub_ne_zero.mpr hx), hdiff, hdiff, slope_of_X_ne hx,
    div_eq_mul_inv]

/-- What the tangent formula tests is whether the tangent is vertical. -/
theorem dvd_two_mul_intY_iff (hc : Supported c) (x y : ZMod c.p) :
    (c.p : Int) ∣ 2 * intY (mkPoint x.val y.val) ↔ 2 * y = 0 := by
  rw [intY_mkPoint_val hc, ← ZMod.intCast_zmod_eq_zero_iff_dvd, Int.cast_mul, intCast_val,
    Int.cast_ofNat]

theorem dvd_intX_sub_iff (hc : Supported c) (x₁ y₁ x₂ y₂ : ZMod c.p) :
    (c.p : Int) ∣ intX (mkPoint x₁.val y₁.val) - intX (mkPoint x₂.val y₂.val) ↔ x₁ = x₂ := by
  rw [intX_mkPoint_val hc, intX_mkPoint_val hc, ← ZMod.intCast_zmod_eq_zero_iff_dvd, Int.cast_sub,
    intCast_val, intCast_val, sub_eq_zero]

/-- Doubling is the curve's, but raises on the points of order 2 (spec R190). -/
theorem double_stored (hc : Supported c) (P : (fieldCurve c).Point) :
    double c (stored P) =
      if P ≠ 0 ∧ P + P = 0 then .error .notInvertible else .ok (stored (P + P)) := by
  have hp := hc.prime.pos
  cases P with
  | zero => rfl
  | some x y h =>
    have hne := stored_some_ne_identity hc h
    by_cases hy : 2 * y = 0
    · have hsum := Point.add_self_of_Y_eq (h₁ := h) ((eq_negY_iff x y).mpr hy)
      rw [if_pos ⟨Point.some_ne_zero h, hsum⟩]
      exact double_of_dvd hp hne ((dvd_two_mul_intY_iff hc x y).mpr hy)
    · have hsum := Point.add_self_of_Y_ne (h₁ := h) (mt (eq_negY_iff x y).mp hy)
      rw [if_neg (fun h0 => Point.some_ne_zero _ (hsum.symm.trans h0.2)), hsum,
        double_of_not_dvd hp hne (mt (dvd_two_mul_intY_iff hc x y).mp hy), stored_some, stored_some,
        thirdPoint_eq, tangentSlope_eq hc hy, intX_mkPoint_val hc, intY_mkPoint_val hc, intCast_val,
        intCast_val]

theorem double_eq_add_self (c : Curve) (Q : Point) : double c Q = add c Q Q := by
  by_cases h : Q = identityPoint
  · rw [h]
    rfl
  · exact (add_self c ((isZero_eq_false_iff Q).mpr h)).symm

/-- Addition is the curve's, but raises where it doubles a point of order 2 (spec R190). -/
theorem add_stored (hc : Supported c) (P₁ P₂ : (fieldCurve c).Point) :
    add c (stored P₁) (stored P₂) =
      if P₁ = P₂ ∧ P₁ ≠ 0 ∧ P₁ + P₁ = 0 then .error .notInvertible
      else .ok (stored (P₁ + P₂)) := by
  by_cases heq : P₁ = P₂
  · subst heq
    simp only [← double_eq_add_self, double_stored hc, true_and]
  rw [if_neg (fun h => heq h.1)]
  match P₁, P₂ with
  | .zero, P₂ =>
    rw [← Point.zero_def, zero_add]
    exact add_identity_left c _
  | P₁, .zero =>
    rw [← Point.zero_def, add_zero]
    exact add_identity_right c _
  | .some x₁ y₁ h₁, .some x₂ y₂ h₂ =>
    have hne₁ := stored_some_ne_identity hc h₁
    have hne₂ := stored_some_ne_identity hc h₂
    by_cases hx : x₁ = x₂
    · subst hx
      have hy : y₁ ≠ y₂ := fun hy => heq (by subst hy; rfl)
      have hneg := (Y_eq_of_X_eq h₁.1 h₂.1 rfl).resolve_left hy
      rw [Point.add_of_Y_eq rfl hneg]
      exact add_of_x_eq c ((isZero_eq_false_iff _).mpr hne₁) ((isZero_eq_false_iff _).mpr hne₂) rfl
        (mt (toReg_val_inj hc).mp hy)
    · rw [Point.add_of_X_ne hx, add_of_not_dvd hc.prime.pos hne₁ hne₂ (mt (toReg_val_inj hc).mp hx)
        (mt (dvd_intX_sub_iff hc x₁ y₁ x₂ y₂).mp hx), stored_some, stored_some, stored_some,
        thirdPoint_eq, chordSlope_eq hc y₁ y₂ hx, intX_mkPoint_val hc, intX_mkPoint_val hc,
        intY_mkPoint_val hc, intCast_val, intCast_val, intCast_val]

theorem stored_add_of_ok (hc : Supported c) {P₁ P₂ : (fieldCurve c).Point} {R : Point}
    (h : add c (stored P₁) (stored P₂) = .ok R) : R = stored (P₁ + P₂) := by
  rw [add_stored hc] at h
  split at h
  · cases h
  · exact (Except.ok.inj h).symm

theorem stored_double_of_ok (hc : Supported c) {P : (fieldCurve c).Point} {R : Point}
    (h : double c (stored P) = .ok R) : R = stored (P + P) :=
  stored_add_of_ok hc ((double_eq_add_self c _).symm.trans h)

/-- A turn of the loop keeps `acc + k·power`, the multiple it ends with. -/
theorem stored_scalarLoop_of_ok (hc : Supported c) {k : Nat} {A P : (fieldCurve c).Point} {R : Point}
    (h : scalarLoop c (binaryDigits k) (stored A) (stored P) = .ok R) : R = stored (A + k • P) := by
  induction k using Nat.strong_induction_on generalizing A P with
  | _ k ih =>
    rcases Nat.eq_zero_or_pos k with rfl | hpos
    · rw [zero_nsmul, add_zero]
      exact (Except.ok.inj h).symm
    have hhalf : k / 2 < k := Nat.div_lt_self hpos one_lt_two
    have hsplit : k • P = (k % 2) • P + (k / 2) • (P + P) := by
      rw [← two_nsmul, ← mul_nsmul, ← add_nsmul, Nat.mod_add_div]
    rcases Nat.mod_two_eq_zero_or_one k with heven | hodd
    · rw [scalarLoop_binaryDigits_of_even c hpos heven] at h
      obtain ⟨P', hdouble, hrest⟩ := (except_bind_eq_ok_iff _ _ _).mp h
      obtain rfl := stored_double_of_ok hc hdouble
      rw [ih _ hhalf hrest, hsplit, heven, zero_nsmul, zero_add]
    · rw [scalarLoop_binaryDigits_of_odd c hodd] at h
      obtain ⟨A', hadd, h⟩ := (except_bind_eq_ok_iff _ _ _).mp h
      obtain ⟨P', hdouble, hrest⟩ := (except_bind_eq_ok_iff _ _ _).mp h
      obtain rfl := stored_add_of_ok hc hadd
      obtain rfl := stored_double_of_ok hc hdouble
      rw [ih _ hhalf hrest, hsplit, hodd, one_nsmul, add_assoc]

theorem stored_scalarMultiply_of_ok (hc : Supported c) {n : Nat} {P : (fieldCurve c).Point} {R : Point}
    (h : scalarMultiply c (stored P) n = .ok R) : R = stored (n • P) := by
  rcases Nat.eq_zero_or_pos n with rfl | hn
  · cases h
  rw [scalarMultiply_of_ne_zero c _ hn.ne', ← stored_zero] at h
  rw [stored_scalarLoop_of_ok hc h, zero_add]

theorem stored_repeatedAdd_of_ok (hc : Supported c) {n : Nat} {P : (fieldCurve c).Point} {R : Point}
    (h : repeatedAdd c (stored P) n = .ok R) : R = stored ((n + 1) • P) := by
  induction n generalizing R with
  | zero =>
    rw [zero_add, one_nsmul]
    exact (Except.ok.inj h).symm
  | succ n ih =>
    obtain ⟨S, hS, hadd⟩ := (except_bind_eq_ok_iff _ _ _).mp h
    obtain rfl := ih hS
    rw [stored_add_of_ok hc hadd, succ_nsmul _ (n + 1)]

end

/-- Settles O49: what the curve's group law returns is a point of the curve. -/
theorem groupLawKeepsValidity : Obligations.GroupLawKeepsValidity := by
  intro c Q1 Q2 hc hQ1 hQ2
  have : Fact c.p.Prime := ⟨hc.prime⟩
  obtain ⟨P1, rfl⟩ := exists_stored_of_valid hc hQ1
  obtain ⟨P2, rfl⟩ := exists_stored_of_valid hc hQ2
  refine ⟨?_, fun R h => ?_, fun R h => ?_, double_eq_add_self c _⟩
  · rw [negatePoint_stored hc]
    exact valid_stored hc _
  · rw [stored_add_of_ok hc h]
    exact valid_stored hc _
  · rw [stored_double_of_ok hc h]
    exact valid_stored hc _

/-- Settles O50: the curve's addition commutes, and what raises does not depend on the order. -/
theorem additionCommutes : Obligations.AdditionCommutes := by
  intro c Q1 Q2 hc hQ1 hQ2
  have : Fact c.p.Prime := ⟨hc.prime⟩
  obtain ⟨P1, rfl⟩ := exists_stored_of_valid hc hQ1
  obtain ⟨P2, rfl⟩ := exists_stored_of_valid hc hQ2
  by_cases h : P1 = P2
  · rw [h]
  · rw [add_stored hc, add_stored hc, if_neg (fun h' => h h'.1), if_neg (fun h' => h h'.1.symm),
      add_comm]

/-- Settles O51: the sum is the curve's zero, and raises just where the point is its own negative. -/
theorem pointPlusItsNegative : Obligations.PointPlusItsNegative := by
  intro c Q hc hQ
  have : Fact c.p.Prime := ⟨hc.prime⟩
  obtain ⟨P, rfl⟩ := exists_stored_of_valid hc hQ
  rw [negatePoint_stored hc, add_stored hc, add_neg_cancel]
  refine ⟨fun hy => ?_, fun hy hx => ?_⟩
  · exact if_neg fun h => hy ((stored_y_eq_zero_iff hc P).mpr h.1)
  · have hself := (stored_y_eq_zero_iff hc P).mp hy
    have hne : P ≠ 0 := fun h0 => hx (h0 ▸ rfl)
    exact if_pos ⟨hself, hne, eq_neg_iff_add_eq_zero.mp hself⟩

/-- Settles O52: both are the same multiple on the curve. -/
theorem scalarMultiplyIsRepeatedAddition : Obligations.ScalarMultiplyIsRepeatedAddition := by
  intro c Q R R' n hc hQ hmul hsum
  have : Fact c.p.Prime := ⟨hc.prime⟩
  obtain ⟨P, rfl⟩ := exists_stored_of_valid hc hQ
  rw [stored_scalarMultiply_of_ok hc hmul, stored_repeatedAdd_of_ok hc hsum]

end Sys2Proof.Machine
end

section
/-! PROOFS. The integer square root of the solver (O42). -/

namespace Sys2Proof.Machine

/-- Each turn of the loop halves the gap in which the root of `n` lies. -/
theorem sqrtLoop_eq_sqrt {n bits root : Nat} (hlow : root * root ≤ n)
    (hhigh : n < (root + 2 ^ bits) * (root + 2 ^ bits)) : sqrtLoop n bits root = Nat.sqrt n := by
  induction bits generalizing root with
  | zero => exact Nat.eq_sqrt.mpr ⟨hlow, hhigh⟩
  | succ b ih =>
    rw [sqrtLoop]
    split
    · next hle =>
      refine ih hle ?_
      rwa [add_assoc, ← two_mul, ← pow_succ']
    · next hgt => exact ih hlow (not_le.mp hgt)

theorem floorSqrt_eq_sqrt (n : Nat) : floorSqrt n = Nat.sqrt n := by
  refine sqrtLoop_eq_sqrt (Nat.zero_le n) ?_
  rw [zero_add, ← pow_add]
  exact Nat.lt_log2_self.trans_le (Nat.pow_le_pow_right two_pos (by omega))

theorem le_ceilSqrt_mul_self (n : Nat) : n ≤ ceilSqrt n * ceilSqrt n := by
  rw [ceilSqrt, floorSqrt_eq_sqrt]
  split
  · next hsquare => exact hsquare.ge
  · exact (Nat.lt_succ_sqrt n).le

theorem ceilSqrt_le_of_le_mul_self {n m : Nat} (h : n ≤ m * m) : ceilSqrt n ≤ m := by
  have hle : Nat.sqrt n ≤ m := Nat.sqrt_le_sqrt h |>.trans_eq (Nat.sqrt_eq m)
  rw [ceilSqrt, floorSqrt_eq_sqrt]
  split
  · exact hle
  · next hsquare =>
    refine lt_of_le_of_ne hle fun heq => hsquare (le_antisymm (Nat.sqrt_le n) ?_)
    rwa [heq]

theorem one_le_ceilSqrt {n : Nat} (h : 1 ≤ n) : 1 ≤ ceilSqrt n := by
  by_contra hzero
  have hle := le_ceilSqrt_mul_self n
  rw [Nat.lt_one_iff.mp (not_le.mp hzero)] at hle
  omega

theorem ceilSqrt_zero : ceilSqrt 0 = 0 := Nat.le_zero.mp (ceilSqrt_le_of_le_mul_self le_rfl)

/-- Settles O42: `floorSqrt` is the rounded root, and `2^128` is one of the bounds `ceilSqrt` is least
among. -/
theorem ceilSqrtIsLeast : Obligations.CeilSqrtIsLeast := fun n =>
  ⟨le_ceilSqrt_mul_self n, fun _ => ceilSqrt_le_of_le_mul_self,
    fun h => ceilSqrt_le_of_le_mul_self (h.le.trans_eq (pow_add 2 128 128))⟩

end Sys2Proof.Machine
end

section
/-! PROOFS. What the table holds after the baby steps (O53). -/

namespace Sys2Proof.Machine

/-- The smallest index of a point among the baby steps (spec R203). -/
def FirstBabyStep (c : Curve) (G K : Point) (j : Nat) : Prop :=
  1 ≤ j ∧ scalarMultiply c G j = .ok K ∧ ∀ j', 1 ≤ j' → j' < j → scalarMultiply c G j' ≠ .ok K

/-- The table after the baby steps `1` to `k`: each of their points, with its smallest index. -/
def HoldsFirstSteps (c : Curve) (G : Point) (k : Nat) (tab : Table) : Prop :=
  ∀ K j, tableLookup tab K = some j ↔ j ≤ k ∧ FirstBabyStep c G K j

theorem exists_firstBabyStep {c : Curve} {G K : Point} {j : Nat} (h1 : 1 ≤ j)
    (hj : scalarMultiply c G j = .ok K) : ∃ i ≤ j, FirstBabyStep c G K i := by
  classical
  have hex : ∃ i, 1 ≤ i ∧ scalarMultiply c G i = .ok K := ⟨j, h1, hj⟩
  obtain ⟨hpos, hstep⟩ := Nat.find_spec hex
  exact ⟨Nat.find hex, Nat.find_min' hex ⟨h1, hj⟩, hpos, hstep,
    fun j' h1' hlt heq => Nat.find_min hex hlt ⟨h1', heq⟩⟩

theorem HoldsFirstSteps.lookup_eq_none_iff {c : Curve} {G : Point} {k : Nat} {tab : Table}
    (h : HoldsFirstSteps c G k tab) (K : Point) :
    tableLookup tab K = none ↔ ∀ j, 1 ≤ j → j ≤ k → scalarMultiply c G j ≠ .ok K := by
  rw [Option.eq_none_iff_forall_ne_some]
  refine ⟨fun hnone j h1 hle hj => ?_, fun hmiss j hsome => ?_⟩
  · obtain ⟨i, hij, hfirst⟩ := exists_firstBabyStep h1 hj
    exact hnone i ((h K i).mpr ⟨hij.trans hle, hfirst⟩)
  · obtain ⟨hle, hpos, hj, _⟩ := (h K j).mp hsome
    exact hmiss j hpos hle hj

/-- An insert adds a binding for its key where there was none, and changes no other (spec R203). -/
theorem tableLookup_insert_eq_some_iff (tab : Table) (K K' : Point) (j i : Nat) :
    tableLookup (tableInsert tab K j) K' = some i ↔
      tableLookup tab K' = some i ∨ (tableLookup tab K' = none ∧ K' = K ∧ i = j) := by
  cases hK : tableLookup tab K with
  | some j' =>
    rw [tableInsert_of_present hK, or_iff_left]
    rintro ⟨hnone, rfl, _⟩
    exact nomatch hnone.symm.trans hK
  | none =>
    by_cases heq : K' = K
    · subst heq
      simp [tableLookup_insert_self_of_absent tab K' j hK, hK, eq_comm]
    · have hother : tableLookup (tableInsert tab K j) K' = tableLookup tab K' := by
        have hne : (K' == K) = false := beq_eq_false_iff_ne.mpr heq
        rw [tableInsert, hK, tableLookup, List.lookup_cons, hne, tableLookup]
      rw [hother, or_iff_left (fun h => heq h.2.1)]

theorem HoldsFirstSteps.nil (c : Curve) (G : Point) : HoldsFirstSteps c G 0 [] := fun _ _ =>
  ⟨nofun, fun ⟨hle, hpos, _⟩ => absurd (hpos.trans hle) (Nat.not_succ_le_zero 0)⟩

theorem HoldsFirstSteps.insert_next {c : Curve} {G K : Point} {k : Nat} {tab : Table}
    (h : HoldsFirstSteps c G k tab) (hK : scalarMultiply c G (k + 1) = .ok K) :
    HoldsFirstSteps c G (k + 1) (tableInsert tab K (k + 1)) := by
  intro K' i
  rw [tableLookup_insert_eq_some_iff, h.lookup_eq_none_iff, h K' i]
  constructor
  · rintro (⟨hle, hfirst⟩ | ⟨hnone, rfl, rfl⟩)
    · exact ⟨Nat.le_succ_of_le hle, hfirst⟩
    · exact ⟨le_rfl, Nat.le_add_left 1 k, hK, fun j h1 hlt => hnone j h1 (Nat.le_of_lt_succ hlt)⟩
  · rintro ⟨hle, hfirst⟩
    rcases Nat.le_succ_iff.mp hle with hle | rfl
    · exact .inl ⟨hle, hfirst⟩
    · obtain ⟨_, hK', hnone⟩ := hfirst
      exact .inr ⟨fun j h1 hle => hnone j h1 (Nat.lt_succ_of_le hle),
        Except.ok.inj (hK'.symm.trans hK), rfl⟩

theorem babySteps_zero (c : Curve) (G : Point) (b : Nat) (tab : Table) :
    babySteps c G 0 b tab = .ok tab := rfl

theorem babySteps_succ (c : Curve) (G : Point) (count b : Nat) (tab : Table) :
    babySteps c G (count + 1) b tab = (scalarMultiply c G b >>= fun K =>
      babySteps c G count (b + 1) (tableInsert tab K b)) := rfl

/-- What every baby step keeps holds after all of them. -/
theorem babySteps_induction {c : Curve} {G : Point} {motive : Nat → Table → Prop}
    (step : ∀ k tab K, scalarMultiply c G (k + 1) = .ok K → motive k tab →
      motive (k + 1) (tableInsert tab K (k + 1)))
    {count k : Nat} {tab tab' : Table} (start : motive k tab)
    (hsteps : babySteps c G count (k + 1) tab = .ok tab') : motive (k + count) tab' := by
  induction count generalizing k tab with
  | zero =>
    obtain rfl := Except.ok.inj hsteps
    exact start
  | succ count ih =>
    obtain ⟨K, hK, hrest⟩ := (except_bind_eq_ok_iff _ _ _).mp hsteps
    rw [← Nat.add_assoc, Nat.add_right_comm]
    exact ih (step k tab K hK start) hrest

/-- The baby steps end with a table when each of them is computed. -/
theorem exists_babySteps_eq_ok_iff (c : Curve) (G : Point) (count b : Nat) (tab : Table) :
    (∃ tab', babySteps c G count b tab = .ok tab') ↔
      ∀ j, b ≤ j → j < b + count → ∃ K, scalarMultiply c G j = .ok K := by
  induction count generalizing b tab with
  | zero => exact ⟨fun _ j hle hlt => absurd hlt (not_lt.mpr hle), fun _ => ⟨tab, rfl⟩⟩
  | succ count ih =>
    have hsum : b + (count + 1) = b + 1 + count := by omega
    rw [babySteps_succ, hsum]
    constructor
    · rintro ⟨tab', hsteps⟩ j hle hlt
      obtain ⟨K, hK, hrest⟩ := (except_bind_eq_ok_iff _ _ _).mp hsteps
      rcases hle.eq_or_lt with rfl | hgt
      · exact ⟨K, hK⟩
      · exact (ih (b + 1) _).mp ⟨tab', hrest⟩ j hgt hlt
    · intro hall
      obtain ⟨K, hK⟩ := hall b le_rfl (by omega)
      rw [hK, except_ok_bind]
      exact (ih (b + 1) _).mpr fun j hle hlt => hall j (by omega) hlt

theorem holdsFirstSteps_of_babySteps {c : Curve} {G : Point} {count : Nat} {tab : Table}
    (h : babySteps c G count 1 [] = .ok tab) : HoldsFirstSteps c G count tab := by
  have hall := babySteps_induction (motive := HoldsFirstSteps c G) (k := 0)
    (fun _ _ _ hK hkeep => hkeep.insert_next hK) (HoldsFirstSteps.nil c G) h
  rwa [Nat.zero_add] at hall

theorem tableOk_of_babySteps {c : Curve} {G : Point} {count : Nat} {tab : Table}
    (h : babySteps c G count 1 [] = .ok tab) : TableOk count tab := by
  have hform := babySteps_induction (motive := TableOk) (k := 0)
    (fun k _ K _ hkeep => tableInsert_ok hkeep K k.succ_pos) (tableClear_ok 0 []) h
  rwa [Nat.zero_add] at hform

/-- Settles O53: every insert keeps the form of the table, and the first index of each key. -/
theorem tableHoldsSmallestIndices : Obligations.TableHoldsSmallestIndices := by
  intro c G count tab h
  refine ⟨tableOk_of_babySteps h, fun K j => (holdsFirstSteps_of_babySteps h K j).trans ?_⟩
  rw [FirstBabyStep, and_left_comm]

end Sys2Proof.Machine
end

section
/-! PROOFS. How the giant steps and the whole search end (for O54 to O60). -/

namespace Sys2Proof.Machine

/-- Giant step `i` computes its probe and finds it in the table at index `j` (spec R200 step 3). -/
def ProbeHits (c : Curve) (Pt mG : Point) (tab : Table) (i j : Nat) : Prop :=
  ∃ Q, giantProbe c Pt mG i = .ok Q ∧ tableLookup tab Q = some j

/-- Giant step `i` computes its probe and does not find it in the table (spec R200 step 3). -/
def ProbeMisses (c : Curve) (Pt mG : Point) (tab : Table) (i : Nat) : Prop :=
  ∃ Q, giantProbe c Pt mG i = .ok Q ∧ tableLookup tab Q = none

theorem giantProbe_eq_ok_iff (c : Curve) (Pt mG : Point) (i : Nat) (Q : Point) :
    giantProbe c Pt mG i = .ok Q ↔
      ∃ S, scalarMultiply c mG i = .ok S ∧ add c Pt (negatePoint c S) = .ok Q :=
  except_bind_eq_ok_iff _ _ _

section
variable {c : Curve} {Pt mG : Point} {m n : Nat} {tab : Table}

theorem giantSteps_succ_of_hits {count i j : Nat} (h : ProbeHits c Pt mG tab i j) :
    giantSteps c Pt mG m n tab (count + 1) i = .ok ((i * m + j) % n) := by
  obtain ⟨Q, hprobe, hlookup⟩ := h
  rw [giantSteps, hprobe, except_ok_bind, hlookup]

theorem giantSteps_succ_of_misses {count i : Nat} (h : ProbeMisses c Pt mG tab i) :
    giantSteps c Pt mG m n tab (count + 1) i = giantSteps c Pt mG m n tab count (i + 1) := by
  obtain ⟨Q, hprobe, hlookup⟩ := h
  rw [giantSteps, hprobe, except_ok_bind, hlookup]

theorem giantSteps_succ_of_error {count i : Nat} {e : FaultCode}
    (h : giantProbe c Pt mG i = .error e) :
    giantSteps c Pt mG m n tab (count + 1) i = .error e := by
  rw [giantSteps, h, except_error_bind]

/-- A giant step hits, misses, or raises while it computes its probe. -/
theorem probe_cases (c : Curve) (Pt mG : Point) (tab : Table) (i : Nat) :
    (∃ j, ProbeHits c Pt mG tab i j) ∨ ProbeMisses c Pt mG tab i ∨
      ∃ e, giantProbe c Pt mG i = .error e := by
  cases hprobe : giantProbe c Pt mG i with
  | error e => exact .inr (.inr ⟨e, rfl⟩)
  | ok Q =>
    cases hlookup : tableLookup tab Q with
    | some j => exact .inl ⟨j, Q, hprobe, hlookup⟩
    | none => exact .inr (.inl ⟨Q, hprobe, hlookup⟩)

/-- Steps that miss are passed over. -/
theorem giantSteps_skip_misses {skipped count i : Nat}
    (h : ∀ i', i ≤ i' → i' < i + skipped → ProbeMisses c Pt mG tab i') :
    giantSteps c Pt mG m n tab (skipped + count) i =
      giantSteps c Pt mG m n tab count (i + skipped) := by
  induction skipped generalizing i with
  | zero => rw [Nat.zero_add, Nat.add_zero]
  | succ skipped ih =>
    rw [Nat.add_right_comm, giantSteps_succ_of_misses (h i le_rfl (by omega)),
      ih fun i' hle hlt => h i' (by omega) (by omega), Nat.add_assoc, Nat.add_comm 1]

/-- The first step that hits ends the search (spec R200 step 3). -/
theorem giantSteps_of_firstHit {count i j : Nat} (h1 : 1 ≤ i) (hi : i ≤ count)
    (hmiss : ∀ i', 1 ≤ i' → i' < i → ProbeMisses c Pt mG tab i')
    (hhit : ProbeHits c Pt mG tab i j) :
    giantSteps c Pt mG m n tab count 1 = .ok ((i * m + j) % n) := by
  obtain ⟨rest, rfl⟩ : ∃ rest, count = (i - 1) + (rest + 1) := ⟨count - i, by omega⟩
  have hstart : 1 + (i - 1) = i := by omega
  rw [giantSteps_skip_misses fun i' hle hlt => hmiss i' hle (by omega), hstart,
    giantSteps_succ_of_hits hhit]

theorem giantSteps_of_allMiss {count : Nat}
    (hmiss : ∀ i, 1 ≤ i → i ≤ count → ProbeMisses c Pt mG tab i) :
    giantSteps c Pt mG m n tab count 1 = .error .searchExhausted := by
  rw [← Nat.add_zero count, giantSteps_skip_misses fun i hle hlt => hmiss i hle (by omega)]
  rfl

theorem exists_hit_of_giantSteps_eq_ok {count i k : Nat}
    (h : giantSteps c Pt mG m n tab count i = .ok k) :
    ∃ i' j, i ≤ i' ∧ i' < i + count ∧ ProbeHits c Pt mG tab i' j ∧ k = (i' * m + j) % n := by
  induction count generalizing i with
  | zero => cases h
  | succ count ih =>
    rcases probe_cases c Pt mG tab i with ⟨j, hhit⟩ | hmiss | ⟨e, herror⟩
    · rw [giantSteps_succ_of_hits hhit] at h
      exact ⟨i, j, le_rfl, by omega, hhit, (Except.ok.inj h).symm⟩
    · rw [giantSteps_succ_of_misses hmiss] at h
      obtain ⟨i', j, hle, hlt, hhit, hk⟩ := ih h
      exact ⟨i', j, by omega, by omega, hhit, hk⟩
    · rw [giantSteps_succ_of_error herror] at h
      cases h

/-- Unless a probe itself raises E_SEARCH_EXHAUSTED, which none does, the fault means that every step
has missed. -/
theorem misses_of_giantSteps_exhausted {count i : Nat}
    (hprobe : ∀ i', i ≤ i' → giantProbe c Pt mG i' ≠ .error .searchExhausted)
    (h : giantSteps c Pt mG m n tab count i = .error .searchExhausted) :
    ∀ i', i ≤ i' → i' < i + count → ProbeMisses c Pt mG tab i' := by
  induction count generalizing i with
  | zero => exact fun i' hle hlt => absurd hlt (not_lt.mpr hle)
  | succ count ih =>
    rcases probe_cases c Pt mG tab i with ⟨j, hhit⟩ | hmiss | ⟨e, herror⟩
    · rw [giantSteps_succ_of_hits hhit] at h
      cases h
    · rw [giantSteps_succ_of_misses hmiss] at h
      intro i' hle hlt
      rcases hle.eq_or_lt with rfl | hgt
      · exact hmiss
      · exact ih (fun i' hle => hprobe i' (by omega)) h i' hgt (by omega)
    · rw [giantSteps_succ_of_error herror] at h
      obtain rfl := Except.error.inj h
      exact absurd herror (hprobe i le_rfl)

end

/-- What stands when the giant steps begin: both points on the curve, the table of the baby steps and
the stride `m·G` (spec R200 steps 1 and 2). -/
structure SearchReady (c : Curve) (limit : Nat) (G Pt : Point) (n : Nat) (baby : Table) (mG : Point) :
    Prop where
  /-- the base is on the curve -/
  baseOnCurve : hasPoint c G = true
  /-- the target is on the curve -/
  targetOnCurve : hasPoint c Pt = true
  /-- the baby steps have filled the table -/
  babyTable : babySteps c G (min (ceilSqrt n) limit) 1 [] = .ok baby
  /-- the stride of the giant steps -/
  stride : scalarMultiply c G (ceilSqrt n) = .ok mG

section
variable {c : Curve} {supplied : Option Nat} {limit : Nat} {tab : Table} {G Pt : Point} {n : Nat}

theorem discreteLogarithm_of_off_curve (h : hasPoint c G = false ∨ hasPoint c Pt = false) :
    discreteLogarithm c supplied limit tab G Pt = .error .invalidInput := by
  rw [discreteLogarithm]
  rcases h with h | h
  · simp [h]
  · simp [h]

theorem discreteLogarithm_of_on_curve (hG : hasPoint c G = true) (hPt : hasPoint c Pt = true) :
    discreteLogarithm c supplied limit tab G Pt =
      (groupOrder c supplied >>= fun n =>
        babySteps c G (min (ceilSqrt n) limit) 1 [] >>= fun baby =>
          scalarMultiply c G (ceilSqrt n) >>= fun mG =>
            giantSteps c Pt mG (ceilSqrt n) n baby (ceilSqrt n) 1) := by
  rw [discreteLogarithm, if_neg (not_not.mpr hG), if_neg (not_not.mpr hPt)]
  rfl

theorem SearchReady.discreteLogarithm_eq {baby : Table} {mG : Point}
    (h : SearchReady c limit G Pt n baby mG) (hn : groupOrder c supplied = .ok n) :
    discreteLogarithm c supplied limit tab G Pt =
      giantSteps c Pt mG (ceilSqrt n) n baby (ceilSqrt n) 1 := by
  rw [discreteLogarithm_of_on_curve h.baseOnCurve h.targetOnCurve, hn, except_ok_bind, h.babyTable,
    except_ok_bind, h.stride, except_ok_bind]

/-- A search that has not been turned away is made with both points on the curve. -/
theorem on_curve_of_discreteLogarithm_ne
    (h : discreteLogarithm c supplied limit tab G Pt ≠ .error .invalidInput) :
    hasPoint c G = true ∧ hasPoint c Pt = true := by
  rw [← Bool.not_eq_false, ← Bool.not_eq_false (hasPoint c Pt), ← not_or]
  exact mt discreteLogarithm_of_off_curve h

theorem exists_searchReady_of_ok {k : Nat} (h : discreteLogarithm c supplied limit tab G Pt = .ok k) :
    ∃ n baby mG, groupOrder c supplied = .ok n ∧ SearchReady c limit G Pt n baby mG := by
  obtain ⟨hG, hPt⟩ := on_curve_of_discreteLogarithm_ne (h.trans_ne nofun)
  rw [discreteLogarithm_of_on_curve hG hPt] at h
  obtain ⟨n, hn, h⟩ := (except_bind_eq_ok_iff _ _ _).mp h
  obtain ⟨baby, hbaby, h⟩ := (except_bind_eq_ok_iff _ _ _).mp h
  obtain ⟨mG, hmG, -⟩ := (except_bind_eq_ok_iff _ _ _).mp h
  exact ⟨n, baby, mG, hn, hG, hPt, hbaby, hmG⟩

/-- The order 0 gives `m = 0`: there is no baby step, and `0·G` is refused (spec R200, R235). -/
theorem discreteLogarithm_of_order_zero (hn : groupOrder c supplied = .ok 0) :
    discreteLogarithm c supplied limit tab G Pt = .error .invalidInput := by
  by_contra hne
  obtain ⟨hG, hPt⟩ := on_curve_of_discreteLogarithm_ne hne
  refine hne ?_
  rw [discreteLogarithm_of_on_curve hG hPt, hn, except_ok_bind, ceilSqrt_zero, Nat.zero_min,
    babySteps_zero, except_ok_bind, scalarMultiply_zero, except_error_bind]

end

end Sys2Proof.Machine
end

section
/-! PROOFS. What DLOG writes and raises (O54 to O58). -/

namespace Sys2Proof.Machine

open Sys2Proof.Claims

section
variable {c : Curve} {G Pt mG : Point} {n : Nat} {baby : Table}

/-- A hit in the words of spec R200 and R203 is a probe found in the table. -/
theorem SearchReady.hitAt_iff (h : SearchReady c Config.memoryLimit G Pt n baby mG) (i j : Nat) :
    HitAt c G Pt n i j ↔ 1 ≤ i ∧ i ≤ ceilSqrt n ∧ ProbeHits c Pt mG baby i j := by
  constructor
  · rintro ⟨h1, hi, hj1, hj, mG', S, Q, hmG, hS, hQ, hstep, hfirst⟩
    obtain rfl := Except.ok.inj (hmG.symm.trans h.stride)
    exact ⟨h1, hi, Q, (giantProbe_eq_ok_iff _ _ _ _ _).mpr ⟨S, hS, hQ⟩,
      (holdsFirstSteps_of_babySteps h.babyTable Q j).mpr ⟨hj, hj1, hstep, hfirst⟩⟩
  · rintro ⟨h1, hi, Q, hprobe, hlookup⟩
    obtain ⟨S, hS, hQ⟩ := (giantProbe_eq_ok_iff _ _ _ _ _).mp hprobe
    obtain ⟨hj, hj1, hstep, hfirst⟩ := (holdsFirstSteps_of_babySteps h.babyTable Q j).mp hlookup
    exact ⟨h1, hi, hj1, hj, mG, S, Q, h.stride, hS, hQ, hstep, hfirst⟩

/-- A miss in the words of spec R200 is a probe not found in the table. -/
theorem SearchReady.probeMisses_of_missAt (h : SearchReady c Config.memoryLimit G Pt n baby mG)
    {i : Nat} (hmiss : MissAt c G Pt n i) : ProbeMisses c Pt mG baby i := by
  obtain ⟨mG', S, Q, hmG, hS, hQ, hnone⟩ := hmiss
  obtain rfl := Except.ok.inj (hmG.symm.trans h.stride)
  exact ⟨Q, (giantProbe_eq_ok_iff _ _ _ _ _).mpr ⟨S, hS, hQ⟩,
    ((holdsFirstSteps_of_babySteps h.babyTable).lookup_eq_none_iff Q).mpr hnone⟩

end

theorem exists_searchReady_of_entered {s : State} {G Pt mG : Point} {n : Nat}
    (h : SearchEntered s G Pt n) (hmG : scalarMultiply s.curve G (ceilSqrt n) = .ok mG) :
    ∃ baby, SearchReady s.curve Config.memoryLimit G Pt n baby mG := by
  obtain ⟨_, hG, hPt, _, hsteps⟩ := h
  obtain ⟨baby, hbaby⟩ := (exists_babySteps_eq_ok_iff s.curve G (babyCount n) 1 []).mpr
    fun j h1 hlt => hsteps j h1 (by omega)
  exact ⟨baby, hG, hPt, hbaby, hmG⟩

theorem SearchReady.searchEntered {s : State} {G Pt mG : Point} {n : Nat} {baby : Table}
    (h : SearchReady s.curve Config.memoryLimit G Pt n baby mG) (hc : s.cvalid = true)
    (hn : groupOrder s.curve s.suppliedOrder = .ok n) : SearchEntered s G Pt n :=
  ⟨hc, h.baseOnCurve, h.targetOnCurve, hn, fun j h1 hj =>
    (exists_babySteps_eq_ok_iff s.curve G (babyCount n) 1 []).mp ⟨baby, h.babyTable⟩ j h1 (by omega)⟩

theorem exec_dlog (d : FReg) (a b : PReg) (s : State) :
    exec (.dlog d a b) s =
      s.afterSolver.finish (word 0x40 d a b) (s.needCurve >>= fun c =>
        discreteLogarithm c s.suppliedOrder Config.memoryLimit s.table (s.readP a) (s.readP b) >>=
          fun k => .ok (s.afterSolver.writeF d (toReg k))) := rfl

/-- With a curve DLOG ends as `discreteLogarithm` does, the hidden table left free (spec R201, U5). -/
theorem exec_dlog_of_cvalid {s : State} (hc : s.cvalid = true) (d : FReg) (a b : PReg) :
    exec (.dlog d a b) s =
      s.forgetTable.finish (word 0x40 d a b)
        (discreteLogarithm s.curve s.suppliedOrder Config.memoryLimit s.table s.pregs[a] s.pregs[b] >>=
          fun k => .ok (s.forgetTable.writeF d (toReg k))) := by
  rw [exec_dlog, State.needCurve_of_cvalid hc, except_ok_bind, State.afterSolver_of_cvalid hc]
  rfl

/-- Without a curve DLOG does not complete (spec R231). -/
theorem cvalid_of_exec_dlog_done {s t : State} {d : FReg} {a b : PReg}
    (h : exec (.dlog d a b) s = .next t) (hdone : t.done = true) : s.cvalid = true := by
  by_contra hc
  rw [exec_dlog, State.needCurve_of_not_cvalid (Bool.eq_false_iff.mpr hc), except_error_bind,
    State.finish_error, Host.Outcome.next.injEq] at h
  rw [← h] at hdone
  cases hdone

theorem exec_dlog_of_ok {s : State} (hc : s.cvalid = true) {d : FReg} {a b : PReg} {k : Nat}
    (h : discreteLogarithm s.curve s.suppliedOrder Config.memoryLimit s.table s.pregs[a] s.pregs[b] =
      .ok k) :
    ∃ tab free, exec (.dlog d a b) s = .next
      { s with
        fregs := s.fregs.set d (BitVec.ofNat 256 k)
        table := tab, freeCount := free, done := true, mode := .idle } := by
  rw [exec_dlog_of_cvalid hc, h]
  exact ⟨_, _, rfl⟩

theorem exec_dlog_of_error {s : State} (hc : s.cvalid = true) {d : FReg} {a b : PReg} {e : FaultCode}
    (h : discreteLogarithm s.curve s.suppliedOrder Config.memoryLimit s.table s.pregs[a] s.pregs[b] =
      .error e) :
    ∃ tab free, exec (.dlog d a b) s = .next
      { faulted s e.number (word 0x40 d a b) with table := tab, freeCount := free } := by
  rw [exec_dlog_of_cvalid hc, h]
  exact ⟨_, _, rfl⟩

/-- A DLOG that completes has written what the search returned. -/
theorem exists_ok_of_exec_dlog_done {s t : State} {d : FReg} {a b : PReg}
    (h : exec (.dlog d a b) s = .next t) (hdone : t.done = true) :
    ∃ k, discreteLogarithm s.curve s.suppliedOrder Config.memoryLimit s.table s.pregs[a] s.pregs[b] =
      .ok k ∧ t.fregs[d] = toReg k := by
  rw [exec_dlog_of_cvalid (cvalid_of_exec_dlog_done h hdone)] at h
  rcases (State.finish_eq_next_iff _ _ _ _).mp h with ⟨s', hs', rfl⟩ | ⟨e, -, rfl⟩
  · obtain ⟨k, hk, hwrite⟩ := (except_bind_eq_ok_iff _ _ _).mp hs'
    obtain rfl := Except.ok.inj hwrite
    exact ⟨k, hk, Vector.getElem_set_self _⟩
  · cases hdone

/-- An order fits its register (spec R31, R140). -/
theorem groupOrder_lt {s : State} {n : Nat} (h : groupOrder s.curve s.suppliedOrder = .ok n) :
    n < 2 ^ 256 := by
  cases ho : s.ovalid with
  | true =>
    rw [State.groupOrder_of_ovalid ho] at h
    exact Except.ok.inj h ▸ s.cn.isLt
  | false =>
    rw [State.groupOrder_of_not_ovalid ho] at h
    rcases Nat.lt_or_ge (1 + (affineSolutions s.curve).card) (2 ^ 256) with hlt | hge
    · rw [countOrder_of_lt hlt] at h
      exact Except.ok.inj h ▸ hlt
    · rw [countOrder_of_le hge] at h
      cases h

/-- The search ends at its first hit, where the stride is computed as in every hit. -/
theorem discreteLogarithm_of_firstHit {s : State} {G Pt : Point} {n i j : Nat} {tab : Table}
    (hentered : SearchEntered s G Pt n)
    (hmiss : ∀ i', 1 ≤ i' → i' < i → MissAt s.curve G Pt n i')
    (hhit : HitAt s.curve G Pt n i j) :
    discreteLogarithm s.curve s.suppliedOrder Config.memoryLimit tab G Pt =
      .ok ((i * ceilSqrt n + j) % n) := by
  have ⟨_, _, _, hn, _⟩ := hentered
  have ⟨_, _, _, _, mG, _, _, hmG, _⟩ := hhit
  obtain ⟨baby, hready⟩ := exists_searchReady_of_entered hentered hmG
  obtain ⟨h1, hi, hprobe⟩ := (hready.hitAt_iff i j).mp hhit
  rw [hready.discreteLogarithm_eq hn]
  exact giantSteps_of_firstHit h1 hi
    (fun i' h1' hlt => hready.probeMisses_of_missAt (hmiss i' h1' hlt)) hprobe

/-- Settles O54: the giant steps before the first hit are passed over. -/
theorem dlogReturnsTheFirstHit : Obligations.DlogReturnsTheFirstHit := by
  intro s d a b n i j hentered hmiss hhit
  exact ⟨assemble_eq_word _ d a b,
    exec_dlog_of_ok hentered.1 (discreteLogarithm_of_firstHit hentered hmiss hhit)⟩

/-- Settles O55: all giant steps are passed over; the first of them gives the stride. -/
theorem dlogReportsExhaustion : Obligations.DlogReportsExhaustion := by
  intro s d a b n hentered h1 hmiss
  have ⟨hc, _, _, hn, _⟩ := hentered
  obtain ⟨mG, -, -, hmG, -⟩ := hmiss 1 le_rfl (one_le_ceilSqrt h1)
  obtain ⟨baby, hready⟩ := exists_searchReady_of_entered hentered hmG
  refine exec_dlog_of_error (e := .searchExhausted) hc ?_
  rw [hready.discreteLogarithm_eq hn]
  exact giantSteps_of_allMiss fun i h1' hi => hready.probeMisses_of_missAt (hmiss i h1' hi)

/-- Settles O56: the tests of membership come first, and the order 0 is refused as a scalar. -/
theorem dlogChecksItsInputsFirst : Obligations.DlogChecksItsInputsFirst := by
  intro s d a b hc hbad
  refine exec_dlog_of_error (e := .invalidInput) hc ?_
  rw [← or_assoc] at hbad
  rcases hbad with hoff | ⟨ho, hzero⟩
  · exact discreteLogarithm_of_off_curve hoff
  · refine discreteLogarithm_of_order_zero ?_
    rw [State.groupOrder_of_ovalid ho, hzero]
    rfl

theorem negatePoint_identity (c : Curve) : negatePoint c identityPoint = identityPoint := by
  simp [negatePoint, identityPoint, intY, residue, toReg]

/-- For the identity the first giant step hits the first baby step (spec R200 case (c)). -/
theorem hitAt_identity (c : Curve) {n : Nat} (h1 : 1 ≤ n) :
    HitAt c identityPoint identityPoint n 1 1 := by
  have hm := one_le_ceilSqrt h1
  refine ⟨le_rfl, hm, le_rfl, le_min hm memoryLimit_pos, identityPoint, identityPoint, identityPoint,
    scalarMultiply_identity c (Nat.one_le_iff_ne_zero.mp hm), scalarMultiply_identity c one_ne_zero,
    ?_, scalarMultiply_identity c one_ne_zero, fun j' h1' hlt => absurd hlt (not_lt.mpr h1')⟩
  rw [negatePoint_identity, add_identity_left]

/-- Settles O57: every multiple of the identity is the identity, so the first probe hits. -/
theorem dlogOfIdentityBase : Obligations.DlogOfIdentityBase := by
  intro s d a b n hc hn h1 ha hb
  have hentered : SearchEntered s identityPoint identityPoint n :=
    ⟨hc, hasPoint_identity _, hasPoint_identity _, hn, fun j h1 _ =>
      ⟨identityPoint, scalarMultiply_identity _ (Nat.one_le_iff_ne_zero.mp h1)⟩⟩
  have hsearch := discreteLogarithm_of_firstHit (tab := s.table) hentered
    (fun i' h1' hlt => absurd hlt (not_lt.mpr h1')) (hitAt_identity s.curve h1)
  rw [Nat.one_mul] at hsearch
  refine exec_dlog_of_ok hc ?_
  rw [ha, hb]
  exact hsearch

/-- Settles O58: what is written is the result of a search, and that of a hit. -/
theorem dlogResultComesFromAHit : Obligations.DlogResultComesFromAHit := by
  intro s t d a b h hdone
  obtain ⟨k, hk, hwritten⟩ := exists_ok_of_exec_dlog_done h hdone
  obtain ⟨n, baby, mG, hn, hready⟩ := exists_searchReady_of_ok hk
  rw [hready.discreteLogarithm_eq hn] at hk
  obtain ⟨i, j, h1, hlt, hprobe, rfl⟩ := exists_hit_of_giantSteps_eq_ok hk
  have hi : i ≤ ceilSqrt n := by omega
  have hpos : 0 < n := by
    by_contra hzero
    rw [Nat.eq_zero_of_not_pos hzero, ceilSqrt_zero] at hi
    omega
  have hkn : (i * ceilSqrt n + j) % n < n := Nat.mod_lt _ hpos
  have hvalue : t.fregs[d].toNat = (i * ceilSqrt n + j) % n := by
    rw [hwritten, toReg_toNat_of_lt (hkn.trans (groupOrder_lt hn))]
  exact ⟨n, i, j, hready.searchEntered (cvalid_of_exec_dlog_done h hdone) hn,
    (hready.hitAt_iff i j).mpr ⟨h1, hi, hprobe⟩, hvalue, hvalue ▸ hkn⟩

end Sys2Proof.Machine
end

section
/-! PROOFS. The group law raises E_NOT_INVERTIBLE and nothing else, so only giant steps that all miss
report an exhausted search (for O60). -/

namespace Sys2Proof.Machine

theorem inverse_error {p : Nat} {z : Int} {e : FaultCode} (h : inverse p z = .error e) :
    e = .notInvertible := by
  rw [inverse] at h
  split at h
  · exact (Except.error.inj h).symm
  · cases h

section
variable {c : Curve} {e : FaultCode}

theorem double_error {Q : Point} (h : double c Q = .error e) : e = .notInvertible := by
  rw [double] at h
  split at h
  · cases h
  · rcases (except_bind_eq_error_iff _ _ _).mp h with hinv | ⟨_, _, hok⟩
    · exact inverse_error hinv
    · cases hok

theorem add_error {Q1 Q2 : Point} (h : add c Q1 Q2 = .error e) : e = .notInvertible := by
  rw [add] at h
  split at h
  · cases h
  split at h
  · cases h
  split at h
  · exact double_error h
  split at h
  · cases h
  rcases (except_bind_eq_error_iff _ _ _).mp h with hinv | ⟨_, _, hok⟩
  · exact inverse_error hinv
  · cases hok

/-- One turn of the loop: add where the digit is set, and double (spec R184). -/
theorem scalarLoop_cons (c : Curve) (d : Bool) (rest : List Bool) (acc power : Point) :
    scalarLoop c (d :: rest) acc power =
      ((if d then add c acc power else .ok acc) >>= fun acc' => double c power >>= fun power' =>
        scalarLoop c rest acc' power') := by
  cases d with
  | true => rfl
  | false => rfl

theorem scalarLoop_error {digits : List Bool} {acc power : Point}
    (h : scalarLoop c digits acc power = .error e) : e = .notInvertible := by
  induction digits generalizing acc power with
  | nil => cases h
  | cons d rest ih =>
    rw [scalarLoop_cons] at h
    rcases (except_bind_eq_error_iff _ _ _).mp h with hadd | ⟨acc', _, h⟩
    · cases d with
      | true => exact add_error hadd
      | false => cases hadd
    rcases (except_bind_eq_error_iff _ _ _).mp h with hdouble | ⟨power', _, hrest⟩
    · exact double_error hdouble
    · exact ih hrest

theorem scalarMultiply_error {Q : Point} {n : Nat} (hn : 1 ≤ n)
    (h : scalarMultiply c Q n = .error e) : e = .notInvertible := by
  rw [scalarMultiply_of_ne_zero c Q (Nat.one_le_iff_ne_zero.mp hn)] at h
  exact scalarLoop_error h

theorem babySteps_error {G : Point} {count b : Nat} {tab : Table} (hb : 1 ≤ b)
    (h : babySteps c G count b tab = .error e) : e = .notInvertible := by
  induction count generalizing b tab with
  | zero => cases h
  | succ count ih =>
    rcases (except_bind_eq_error_iff _ _ _).mp h with hstep | ⟨K, _, hrest⟩
    · exact scalarMultiply_error hb hstep
    · exact ih (Nat.le_succ_of_le hb) hrest

theorem giantProbe_error {Pt mG : Point} {i : Nat} (hi : 1 ≤ i)
    (h : giantProbe c Pt mG i = .error e) : e = .notInvertible := by
  rcases (except_bind_eq_error_iff _ _ _).mp h with hmultiple | ⟨S, _, hadd⟩
  · exact scalarMultiply_error hi hmultiple
  · exact add_error hadd

end

/-- A search is reported exhausted only where all its giant steps have missed (spec R238). -/
theorem exists_searchReady_of_exhausted {c : Curve} {supplied : Option Nat} {limit : Nat} {tab : Table}
    {G Pt : Point} {n : Nat} (hn : groupOrder c supplied = .ok n)
    (h : discreteLogarithm c supplied limit tab G Pt = .error .searchExhausted) :
    1 ≤ n ∧ ∃ baby mG, SearchReady c limit G Pt n baby mG ∧
      ∀ i, 1 ≤ i → i ≤ ceilSqrt n → ProbeMisses c Pt mG baby i := by
  have hpos : 1 ≤ n := by
    by_contra hzero
    obtain rfl := Nat.lt_one_iff.mp (not_le.mp hzero)
    exact nomatch h.symm.trans (discreteLogarithm_of_order_zero hn)
  obtain ⟨hG, hPt⟩ := on_curve_of_discreteLogarithm_ne (h.trans_ne nofun)
  rw [discreteLogarithm_of_on_curve hG hPt, hn, except_ok_bind] at h
  rcases (except_bind_eq_error_iff _ _ _).mp h with hsteps | ⟨baby, hbaby, h⟩
  · exact nomatch babySteps_error le_rfl hsteps
  rcases (except_bind_eq_error_iff _ _ _).mp h with hstride | ⟨mG, hmG, hgiant⟩
  · exact nomatch scalarMultiply_error (one_le_ceilSqrt hpos) hstride
  refine ⟨hpos, baby, mG, ⟨hG, hPt, hbaby, hmG⟩, fun i h1 hi => ?_⟩
  exact misses_of_giantSteps_exhausted (fun i' h1' he => nomatch giantProbe_error h1' he) hgiant i h1
    (by omega)

end Sys2Proof.Machine
end

section
/-! PROOFS. The search on a supported curve: what a hit says in the group, and that a multiple of the
base has a hit (O59, O60). -/

namespace Sys2Proof.Machine

open Sys2Proof.Claims WeierstrassCurve.Affine

section
variable {c : Curve} [Fact c.p.Prime]

theorem stored_injective (hc : Supported c) : Function.Injective (stored (c := c)) := by
  intro P₁ P₂ h
  match P₁, P₂ with
  | .zero, .zero => rfl
  | .zero, .some _ _ h₂ => exact absurd h.symm (stored_some_ne_identity hc h₂)
  | .some _ _ h₁, .zero => exact absurd h (stored_some_ne_identity hc h₁)
  | .some _ _ _, .some _ _ _ =>
    obtain ⟨rfl, rfl⟩ := (mkPoint_val_inj hc).mp h
    rfl

/-- The group sum is the curve's; it is the identity where `add` raises (spec R190). -/
theorem groupSum_stored (hc : Supported c) (P₁ P₂ : (fieldCurve c).Point) :
    groupSum c (stored P₁) (stored P₂) = stored (P₁ + P₂) := by
  rw [groupSum, add_stored hc]
  by_cases h : P₁ = P₂ ∧ P₁ ≠ 0 ∧ P₁ + P₁ = 0
  · have ⟨heq, _, hsum⟩ := h
    rw [if_pos h, ← heq, hsum]
    rfl
  · rw [if_neg h]

theorem groupMultiple_stored (hc : Supported c) (P : (fieldCurve c).Point) (n : Nat) :
    groupMultiple c (stored P) n = stored (n • P) := by
  induction n with
  | zero =>
    rw [zero_nsmul]
    rfl
  | succ n ih => rw [groupMultiple, ih, groupSum_stored hc, succ_nsmul]

theorem nsmul_eq_zero_of_groupMultiple (hc : Supported c) {P : (fieldCurve c).Point} {n : Nat}
    (h : groupMultiple c (stored P) n = ⟨0, 0⟩) : n • P = 0 :=
  stored_injective hc ((groupMultiple_stored hc P n).symm.trans h)

/-- A probe that is computed is `Pt - i·(m·G)` in the group (spec R200 step 3). -/
theorem stored_giantProbe_of_ok (hc : Supported c) {T M : (fieldCurve c).Point} {i : Nat} {Q : Point}
    (h : giantProbe c (stored T) (stored M) i = .ok Q) : Q = stored (T - i • M) := by
  obtain ⟨S, hS, hadd⟩ := (giantProbe_eq_ok_iff _ _ _ _ _).mp h
  obtain rfl := stored_scalarMultiply_of_ok hc hS
  rw [negatePoint_stored hc] at hadd
  rw [stored_add_of_ok hc hadd, sub_eq_add_neg]

/-- Whatever the search returns is a logarithm of the target (spec R204). -/
theorem nsmul_eq_of_discreteLogarithm_ok (hc : Supported c) {supplied : Option Nat} {limit : Nat}
    {tab : Table} {P T : (fieldCurve c).Point} {n k : Nat} (hn : groupOrder c supplied = .ok n)
    (horder : n • P = 0)
    (h : discreteLogarithm c supplied limit tab (stored P) (stored T) = .ok k) : k • P = T := by
  obtain ⟨n', baby, mG, hn', hready⟩ := exists_searchReady_of_ok h
  obtain rfl := Except.ok.inj (hn'.symm.trans hn)
  rw [hready.discreteLogarithm_eq hn] at h
  obtain ⟨i, j, _, _, ⟨Q, hprobe, hlookup⟩, rfl⟩ := exists_hit_of_giantSteps_eq_ok h
  obtain ⟨_, _, hstep, _⟩ := (holdsFirstSteps_of_babySteps hready.babyTable Q j).mp hlookup
  obtain rfl := stored_scalarMultiply_of_ok hc hready.stride
  have hhit : T - i • ceilSqrt n' • P = j • P := stored_injective hc
    ((stored_giantProbe_of_ok hc hprobe).symm.trans (stored_scalarMultiply_of_ok hc hstep))
  have hmod : (i * ceilSqrt n' + j) % n' ≡ i * ceilSqrt n' + j [MOD addOrderOf P] :=
    (Nat.mod_modEq _ _).of_dvd (addOrderOf_dvd_of_nsmul_eq_zero horder)
  calc ((i * ceilSqrt n' + j) % n') • P
      = (i * ceilSqrt n' + j) • P := nsmul_eq_nsmul_iff_modEq.mpr hmod
    _ = j • P + i • ceilSqrt n' • P := by rw [add_nsmul, mul_nsmul', add_comm]
    _ = T := by rw [← hhit, sub_add_cancel]

end

/-- Settles O59: the search returns a logarithm, and SMUL returns the multiple it computes. -/
theorem dlogIsSound : Obligations.DlogIsSound := by
  intro c supplied limit tab G Pt n k hc hG hPt hn horder h
  have : Fact c.p.Prime := ⟨hc.prime⟩
  obtain ⟨P, rfl⟩ := exists_stored_of_valid hc hG
  obtain ⟨T, rfl⟩ := exists_stored_of_valid hc hPt
  obtain rfl := nsmul_eq_of_discreteLogarithm_ok hc hn (nsmul_eq_zero_of_groupMultiple hc horder) h
  refine ⟨groupMultiple_stored hc P k, ?_, fun R _ hR => stored_scalarMultiply_of_ok hc hR⟩
  rintro rfl
  rw [zero_nsmul]
  rfl

/-- The sums `i·m + j` of the search are `m²` numbers in a row, so they meet every class modulo `n`. -/
theorem exists_giant_baby_modEq {n m : Nat} (hn : 1 ≤ n) (hm : n ≤ m * m) (k : Nat) :
    ∃ i j, (1 ≤ i ∧ i ≤ m) ∧ (1 ≤ j ∧ j ≤ m) ∧ i * m + j ≡ k [MOD n] := by
  have hstart : m + 1 ≤ n * (m + 1) := Nat.le_mul_of_pos_left _ hn
  obtain ⟨r, hr⟩ : ∃ r, r = (k + (n * (m + 1) - (m + 1))) % n := ⟨_, rfl⟩
  have hlt : r < m * m := hr ▸ (Nat.mod_lt _ hn).trans_le hm
  have hmpos : 0 < m := Nat.pos_of_mul_pos_left (Nat.zero_lt_of_lt hlt)
  have hi : r / m < m := Nat.div_lt_of_lt_mul hlt
  have hj : r % m < m := Nat.mod_lt r hmpos
  refine ⟨1 + r / m, 1 + r % m, ⟨Nat.le_add_right 1 _, by omega⟩,
    ⟨Nat.le_add_right 1 _, by omega⟩, ?_⟩
  calc (1 + r / m) * m + (1 + r % m)
      = m + 1 + (r % m + m * (r / m)) := by ring
    _ = m + 1 + r := by rw [Nat.mod_add_div]
    _ ≡ m + 1 + (k + (n * (m + 1) - (m + 1))) [MOD n] := (hr ▸ Nat.mod_modEq _ n).add_left _
    _ = k + n * (m + 1) := by omega
    _ ≡ k [MOD n] := by simp [Nat.ModEq]

/-- Settles O60: some `i·m + j` is the logarithm modulo `n`, and giant step `i` finds baby step `j`. -/
theorem dlogNeverMissesAMultiple : Obligations.DlogNeverMissesAMultiple := by
  intro c supplied limit tab G Pt n k' hc hG hn horder hPt hlimit hexhausted
  have : Fact c.p.Prime := ⟨hc.prime⟩
  obtain ⟨P, rfl⟩ := exists_stored_of_valid hc hG
  rw [groupMultiple_stored hc] at hPt
  subst hPt
  obtain ⟨hpos, baby, mG, hready, hmiss⟩ := exists_searchReady_of_exhausted hn hexhausted
  obtain rfl := stored_scalarMultiply_of_ok hc hready.stride
  obtain ⟨i, j, ⟨h1, hi⟩, ⟨hj1, hj⟩, hmod⟩ :=
    exists_giant_baby_modEq hpos (le_ceilSqrt_mul_self n) k'
  have hbaby : j ≤ min (ceilSqrt n) limit := le_min hj (hj.trans hlimit)
  have hprobe : k' • P - i • ceilSqrt n • P = j • P := by
    have hdvd := addOrderOf_dvd_of_nsmul_eq_zero (nsmul_eq_zero_of_groupMultiple hc horder)
    rw [← nsmul_eq_nsmul_iff_modEq.mpr (hmod.of_dvd hdvd), add_nsmul, mul_nsmul', add_sub_cancel_left]
  obtain ⟨Q, hQ, hnone⟩ := hmiss i h1 hi
  obtain ⟨K, hK⟩ := (exists_babySteps_eq_ok_iff _ _ _ _ _).mp ⟨baby, hready.babyTable⟩ j hj1
    (by omega)
  refine ((holdsFirstSteps_of_babySteps hready.babyTable).lookup_eq_none_iff Q).mp hnone j hj1 hbaby ?_
  rw [hK, stored_scalarMultiply_of_ok hc hK, stored_giantProbe_of_ok hc hQ, hprobe]

end Sys2Proof.Machine
end

section
/-! PROOFS. The control command FACK (O23). -/

namespace Sys2Proof.Machine

theorem State.complete_acknowledge (s : State) :
    s.acknowledge.complete = { s with mode := .idle, err := 0, faultcmd := 0, done := true } := rfl

/-- Settles O23: FACK's meaning has no fault branch; it is the acknowledgement, then completion. -/
theorem fackAcknowledges : Obligations.FackAcknowledges :=
  ⟨encode_fack, fun s => (exec_fack s).trans (congrArg _ s.complete_acknowledge)⟩

end Sys2Proof.Machine
end

section
/-! PROOFS. Words that are no command, and that faults are precise (O4, O20). -/

namespace Sys2Proof.Machine

open Sys2Proof.Claims

/-- The checks of spec R95 pass for the words of commands and for no other word. -/
theorem wellFormed_eq_true_iff_decodes (w : Word32) :
    (CmdFields.ofWord w).wellFormed = true ↔ ∃ i, decode w = .ok i := by
  constructor
  · intro hwf
    obtain ⟨r, hr, haccepts⟩ := CmdFields.exists_row_of_wellFormed hwf
    obtain ⟨i, hi, -⟩ := decodeFields_of_accepts hr haccepts
    exact ⟨i, hi⟩
  · rintro ⟨i, hi⟩
    exact encode_of_decode hi ▸ i.wellFormed_eq_true

theorem exists_decode_error_of_not_wellFormed {w : Word32}
    (h : (CmdFields.ofWord w).wellFormed = false) : ∃ e, decode w = .error e := by
  cases hd : decode w with
  | error e => exact ⟨e, rfl⟩
  | ok i => exact nomatch h.symm.trans ((wellFormed_eq_true_iff_decodes w).mpr ⟨i, hd⟩)

/-- Fault entry is the state change of spec R233. -/
theorem State.raise_eq_faulted (s : State) (e : FaultCode) (w : Word32) :
    s.raise e w = faulted s e.number w := rfl

/-- Settles O4: the words that fail the checks of R95 are those the decoder rejects, and the engine
faults on them. -/
theorem illegalWordsFault : Obligations.IllegalWordsFault := by
  intro s w hm
  refine ⟨fun hbad => ?_, fun hgood => ?_⟩
  · obtain ⟨e, hd⟩ := exists_decode_error_of_not_wellFormed hbad
    refine ⟨engineStep_of_illegal hm hd, fun hin => ?_, fun rest hin => ?_⟩
    · exact (step_of_no_input hin).trans (engineStep_of_illegal hm hd)
    · rw [step_of_input hin, deliver_engine]
      exact engineStep_of_illegal (s := { s with inputs := rest }) hm hd
  · obtain ⟨i, hd⟩ := (wellFormed_eq_true_iff_decodes w).mp hgood
    exact ⟨i, encode_of_decode hd, engineStep_of_decoded hm hd⟩

/-- A command that does not complete leaves the state before it with the fault registers written, and
the hidden table and the free-value index too unless it is a DLOG (spec R233, R38). -/
theorem exec_completes_or_faulted {i : Instr} {s t : State} (h : exec i s = .next t) :
    (t.mode = .idle ∧ t.done = true) ∨
    ∃ (e : FaultCode) (tab : Table) (k : Nat),
      t = { faulted s e.number (encode i) with table := tab, freeCount := k } ∧
      (isDlog i = false → tab = s.table ∧ k = s.freeCount) := by
  rcases exec_cases h with ⟨s', -, rfl⟩ | ⟨e, rfl⟩
  · exact .inl ⟨rfl, rfl⟩
  · have htable := faultBase_table_eq (i := i) s
    obtain ⟨tab, k, hbase⟩ := faultBase_eq_update i s
    rw [hbase] at htable ⊢
    exact .inr ⟨e, tab, k, State.raise_eq_faulted _ e _, htable⟩

/-- Settles O20: a decoded word is its command's, and any other word's fault is raised on the state
itself. -/
theorem faultsArePrecise : Obligations.FaultsArePrecise := by
  refine ⟨fun i s t h => exec_completes_or_faulted h, fun w s t hm h => ?_⟩
  cases hd : decode w with
  | ok i =>
    rw [engineStep_of_decoded hm hd] at h
    rcases exec_completes_or_faulted h with hdone | ⟨e, tab, k, ht, htable⟩
    · exact .inl hdone
    · rw [encode_of_decode hd] at ht
      exact .inr ⟨e, tab, k, ht, fun hother => htable (hother i rfl)⟩
  | error e =>
    rw [engineStep_of_illegal hm hd] at h
    exact .inr ⟨.illegalCmd, s.table, s.freeCount, (Host.Outcome.next.inj h).symm,
      fun _ => ⟨rfl, rfl⟩⟩

end Sys2Proof.Machine
end

section
/-! PROOFS. Which faults each function of the model can raise, and with them each command (O21,
O22). -/

namespace Sys2Proof.Machine

open Sys2Proof.Claims

section
variable {c : Curve} {e : FaultCode}

theorem squareRoot_error {p z : Nat} (h : squareRoot p z = .error e) : e = .unsupportedModulus := by
  rw [squareRoot] at h
  split at h
  · exact (Except.error.inj h).symm
  · cases h

theorem State.constructCurve_error {s : State} {pp : Word256} (h : s.constructCurve pp = .error e) :
    e = .curveParams := by
  rw [State.constructCurve] at h
  split at h
  · exact (Except.error.inj h).symm
  split at h
  · exact (Except.error.inj h).symm
  · cases h

/-- Only the count can fault, not a supplied order (spec R140, R141). -/
theorem groupOrder_error {supplied : Option Nat} (h : groupOrder c supplied = .error e) :
    e = .range := by
  cases supplied with
  | some n => cases h
  | none =>
    rw [groupOrder, countOrder] at h
    split at h
    · exact (Except.error.inj h).symm
    · cases h

/-- The scalar 0 is refused; any other multiple raises what the group law raises (spec R184). -/
theorem scalarMultiply_error_mem {Q : Point} {n : Nat} (h : scalarMultiply c Q n = .error e) :
    e ∈ [FaultCode.invalidInput, .notInvertible] := by
  rcases n.eq_zero_or_pos with rfl | hpos
  · obtain rfl := Except.error.inj h
    decide
  · obtain rfl := scalarMultiply_error hpos h
    decide

/-- The giant steps raise what a probe raises, or end without a hit (spec R200 step 3). -/
theorem giantSteps_error {Pt mG : Point} {m n : Nat} {tab : Table} {count i : Nat} (hi : 1 ≤ i)
    (h : giantSteps c Pt mG m n tab count i = .error e) :
    e = .notInvertible ∨ e = .searchExhausted := by
  induction count generalizing i with
  | zero => exact .inr (Except.error.inj h).symm
  | succ count ih =>
    rcases probe_cases c Pt mG tab i with ⟨j, hhit⟩ | hmiss | ⟨e', hprobe⟩
    · rw [giantSteps_succ_of_hits hhit] at h
      cases h
    · rw [giantSteps_succ_of_misses hmiss] at h
      exact ih (Nat.le_succ_of_le hi) h
    · rw [giantSteps_succ_of_error hprobe] at h
      obtain rfl := Except.error.inj h
      exact .inl (giantProbe_error hi hprobe)

/-- The faults of each stage of the search (spec R200). -/
theorem discreteLogarithm_error_mem {supplied : Option Nat} {limit : Nat} {tab : Table}
    {G Pt : Point} (h : discreteLogarithm c supplied limit tab G Pt = .error e) :
    e ∈ [FaultCode.invalidInput, .notInvertible, .searchExhausted, .range] := by
  by_cases hinput : e = .invalidInput
  · exact hinput ▸ List.mem_cons_self
  obtain ⟨hG, hPt⟩ := on_curve_of_discreteLogarithm_ne fun hoff =>
    hinput (Except.error.inj (h.symm.trans hoff))
  rw [discreteLogarithm_of_on_curve hG hPt] at h
  rcases (except_bind_eq_error_iff _ _ _).mp h with horder | ⟨n, -, h⟩
  · obtain rfl := groupOrder_error horder
    decide
  rcases (except_bind_eq_error_iff _ _ _).mp h with hbaby | ⟨baby, -, h⟩
  · obtain rfl := babySteps_error le_rfl hbaby
    decide
  rcases (except_bind_eq_error_iff _ _ _).mp h with hstride | ⟨mG, -, hgiant⟩
  · exact List.mem_append_left [.searchExhausted, .range] (scalarMultiply_error_mem hstride)
  · obtain rfl | rfl := giantSteps_error le_rfl hgiant <;> decide

/-- Writing a computed result raises nothing more than the computation. -/
theorem except_error_of_bind_ok {α β : Type} {x : Except FaultCode α} {g : α → β}
    (h : (x >>= fun a => .ok (g a)) = .error e) : x = .error e :=
  ((except_bind_eq_error_iff _ _ _).mp h).resolve_right fun ⟨_, _, hok⟩ => nomatch hok

end

/-- Each of the twelve commands that read the curve tests for it first, and what it then computes
raises only the faults of its row (spec R231, R240, R243). -/
theorem exec_of_needsCurve {i : Instr} (hi : needsCurve i = true) (s : State) :
    ∃ f, exec i s = (faultBase i s).finish (encode i) (s.needCurve >>= f) ∧
      ∀ c e, f c = .error e → e ∈ ownFaults i := by
  cases i with
  | crvGetp | ordSet | haspt | pneg | fmul => exact ⟨_, rfl, nofun⟩
  | ordGet =>
    exact ⟨_, rfl, fun _ _ h =>
      List.mem_singleton.mpr (groupOrder_error (except_error_of_bind_ok h))⟩
  | padd =>
    exact ⟨_, rfl, fun _ _ h =>
      List.mem_singleton.mpr (add_error (except_error_of_bind_ok h))⟩
  | pdbl =>
    exact ⟨_, rfl, fun _ _ h =>
      List.mem_singleton.mpr (double_error (except_error_of_bind_ok h))⟩
  | finv =>
    exact ⟨_, rfl, fun _ _ h =>
      List.mem_singleton.mpr (inverse_error (except_error_of_bind_ok h))⟩
  | fsqrt =>
    exact ⟨_, rfl, fun _ _ h =>
      List.mem_singleton.mpr (squareRoot_error (except_error_of_bind_ok h))⟩
  | smul => exact ⟨_, rfl, fun _ _ h => scalarMultiply_error_mem (except_error_of_bind_ok h)⟩
  | dlog => exact ⟨_, rfl, fun _ _ h => discreteLogarithm_error_mem (except_error_of_bind_ok h)⟩
  | _ => exact nomatch hi

/-- The other nine commands ask for no curve; of them only CRV.INIT faults (spec R243). -/
theorem exec_of_not_needsCurve {i : Instr} (hi : needsCurve i = false) (s : State) :
    ∃ r, exec i s = s.finish (encode i) r ∧ ∀ e, r = .error e → e ∈ ownFaults i := by
  cases i with
  | fack | ptZero | ptSet | ptGetx | ptGety | ptIsz | ptEq | crvSecp =>
    exact ⟨.ok _, rfl, nofun⟩
  | crvInit => exact ⟨_, rfl, fun _ h => List.mem_singleton.mpr (State.constructCurve_error h)⟩
  | _ => exact nomatch hi

/-- Without a curve no command enters a search, so its faults are raised on the state itself. -/
theorem faultBase_of_not_cvalid (i : Instr) {s : State} (hc : s.cvalid = false) :
    faultBase i s = s := by
  cases i with
  | dlog => exact if_neg (Bool.eq_false_iff.mp hc)
  | _ => rfl

/-- Settles O21: the test for the curve comes first and raises. -/
theorem noCurveFaultsFirst : Obligations.NoCurveFaultsFirst := by
  intro i s hi hc
  obtain ⟨f, hexec, -⟩ := exec_of_needsCurve hi s
  rw [hexec, faultBase_of_not_cvalid i hc]
  exact State.finish_needCurve_of_not_cvalid hc (encode i) f

/-- In FAULTED, `ERR` names the one fault the command's result can have been (spec R233). -/
theorem State.finish_eq_error_of_faulted {s t : State} {w : Word32} {r : Except FaultCode State}
    {e : FaultCode} (h : s.finish w r = .next t) (hm : t.mode = .faulted) (he : t.err = e.number) :
    r = .error e := by
  rcases (State.finish_eq_next_iff _ _ _ _).mp h with ⟨s', -, rfl⟩ | ⟨e', hr, rfl⟩
  · cases hm
  · rw [hr, FaultCode.number_injective he]

/-- Settles O22: a command of the twelve faults at the test for the curve or in what it computes, any
other in what it computes. -/
theorem faultsFollowTheTable : Obligations.FaultsFollowTheTable := by
  intro i s t e h hm he
  cases hi : needsCurve i with
  | false =>
    obtain ⟨r, hexec, hfaults⟩ := exec_of_not_needsCurve hi s
    exact .inr (hfaults e (State.finish_eq_error_of_faulted (hexec.symm.trans h) hm he))
  | true =>
    obtain ⟨f, hexec, hfaults⟩ := exec_of_needsCurve hi s
    have hr := State.finish_eq_error_of_faulted (hexec.symm.trans h) hm he
    rcases s.needCurve_cases with ⟨-, hcurve⟩ | ⟨-, hcurve⟩
    · rw [hcurve, except_ok_bind] at hr
      exact .inr (hfaults s.curve e hr)
    · rw [hcurve, except_error_bind] at hr
      exact .inl ⟨(Except.error.inj hr).symm, rfl⟩

end Sys2Proof.Machine
end

section
/-! PROOFS. FAULTED is left by FACK or reset only (O24). -/

namespace Sys2Proof.Machine

open Sys2Proof.Claims

/-- Settles O24, by the next event: the engine has nothing to end, a read changes the reply alone, and
a write other than FACK's to `CMD` is refused. -/
theorem faultedIsLeftByFackOrResetOnly : Obligations.FaultedIsLeftByFackOrResetOnly := by
  intro s t hm hstep
  cases hin : s.inputs with
  | nil =>
    rw [step_of_no_input hin, engineStep_of_faulted hm] at hstep
    obtain rfl := Host.Outcome.next.inj hstep
    exact .inl ⟨s.reply, s.freeCount, congrArg (fun l => { s with inputs := l }) hin⟩
  | cons event rest =>
    cases event with
    | reset => exact .inr (.inl ⟨rest, rfl⟩)
    | engine =>
      rw [step_of_input hin, deliver_engine,
        engineStep_of_faulted (s := { s with inputs := rest }) hm] at hstep
      exact .inl ⟨s.reply, s.freeCount, (Host.Outcome.next.inj hstep).symm⟩
    | read addr width =>
      obtain ⟨r, k, hread⟩ := busRead_changes_only_reply addr width { s with inputs := rest }
      rw [step_of_input hin, deliver_read, hread] at hstep
      exact .inl ⟨r, k, (Host.Outcome.next.inj hstep).symm⟩
    | write addr width v =>
      by_cases hfack : width = 4 ∧ addr = 0 ∧ v = 0x01000000
      · obtain ⟨rfl, rfl, rfl⟩ := hfack
        exact .inr (.inr ⟨rest, rfl⟩)
      · have hrefused : width ≠ 4 ∨ ¬ (addr = 0 ∧ v = 0x01000000) := not_and_or.mp hfack
        have hnext := (refusedTransactionsChangeNothing s addr width rest).1 v hin
          (hrefused.imp_right fun hword => .inr (.inr (.inl ⟨hm, hword⟩)))
        exact .inl ⟨_, s.freeCount, Host.Outcome.next.inj (hstep.symm.trans hnext)⟩

end Sys2Proof.Machine
end

section
/-! PROOFS. Reset from any mode, and that no step stops the machine (O16, O19). -/

namespace Sys2Proof.Machine

/-- Settles O16: handling a reset reads the mode nowhere, so no case split on it is needed. -/
theorem resetFromAnyMode : Obligations.ResetFromAnyMode := by
  intro s rest hin
  rw [step_of_input hin, deliver_reset]
  exact ⟨_, _, rfl⟩

/-- Every command ends through `finish`, which always answers (spec R277). -/
theorem exec_exists_next (i : Instr) (s : State) : ∃ t, exec i s = .next t := by
  obtain ⟨r, hexec, -⟩ := exec_shape i s
  rw [hexec]
  exact State.finish_exists_next _ _ _

theorem engineStep_exists_next (s : State) : ∃ t, engineStep s = .next t := by
  cases hm : s.mode with
  | busy w =>
    cases hd : decode w with
    | ok i => exact engineStep_of_decoded hm hd ▸ exec_exists_next i s
    | error e => exact ⟨_, engineStep_of_illegal hm hd⟩
  | idle => exact ⟨s, engineStep_of_idle hm⟩
  | faulted => exact ⟨s, engineStep_of_faulted hm⟩

theorem busWrite_exists_next (addr width : Nat) (v : Word32) (s : State) :
    ∃ t, busWrite addr width v s = .next t := by
  rcases busWrite_cases addr width v s with ⟨-, -, hissue⟩ | ⟨-, l, -, -, hstore⟩ |
    ⟨-, -, -, hfack⟩ | hrefused
  · exact ⟨_, hissue⟩
  · exact ⟨_, hstore⟩
  · exact ⟨_, hfack.trans (exec_fack _)⟩
  · exact ⟨_, hrefused⟩

theorem deliver_exists_next (event : Input) (s : State) : ∃ t, deliver event s = .next t := by
  cases event with
  | read addr width => exact ⟨_, deliver_read addr width s⟩
  | write addr width v => exact busWrite_exists_next addr width v s
  | reset => exact ⟨_, deliver_reset s⟩
  | engine => exact engineStep_exists_next s

/-- The step is total (spec R277). -/
theorem step_exists_next (s : State) : ∃ t, step s = .next t := by
  cases hin : s.inputs with
  | nil => exact step_of_no_input hin ▸ engineStep_exists_next s
  | cons event rest => exact step_of_input hin ▸ deliver_exists_next event _

/-- The word in flight ends in IDLE with `DONE = 1` or in FAULTED with `DONE = 0` (spec R39, R66,
R233). -/
theorem engineStep_ends_word {s t : State} {w : Word32} (hm : s.mode = .busy w)
    (h : engineStep s = .next t) :
    (t.mode = .idle ∧ t.done = true) ∨ (t.mode = .faulted ∧ t.done = false) := by
  rcases faultsArePrecise.2 w s t hm h with hdone | ⟨e, tab, k, rfl, -⟩
  · exact .inl hdone
  · exact .inr ⟨rfl, rfl⟩

/-- Settles O19: the step is total whatever the event, and so is the engine, which completes the word
in flight or faults on it. -/
theorem everyStepAnswersNext : Obligations.EveryStepAnswersNext := by
  refine fun s => ⟨step_exists_next s, fun w hm => ?_⟩
  obtain ⟨t, ht⟩ := engineStep_exists_next s
  exact ⟨t, ht, engineStep_ends_word hm ht⟩

end Sys2Proof.Machine
end
